-- ==== Sys2Proof/Word.lean ====
section
/-!
DEFINITION. The fixed-width values of the SGM hash core (spec/00_scope.md R9, R13, R15).
-/

namespace Sys2Proof

/-- A word: a 32-bit unsigned integer, arithmetic modulo 2^32 (R13). -/
abbrev Word := BitVec 32

/-- A byte: an 8-bit unsigned integer (R13). -/
abbrev Byte := BitVec 8

/-- A finite sequence of bytes (R15). -/
abbrev Bytes := List Byte

/-- A stage intermediate: exactly 64 bytes (R9, R12). -/
abbrev Bytes64 := Vector Byte 64

end Sys2Proof
end

