-- ==== Sys2Proof/Config.lean ====
section
/-!
DEFINITION. The parameters of the block (spec/00_scope.md R7, spec/20_memory.md R72), each a field of `Config`; what a
well-formed configuration is (R8); the configuration of the modelled chip, which gives the decided parameters their values and
leaves the OPEN ones open; and the free values. Every operation that depends on a parameter takes a `Config`; `exec` and `step`
run them on `Config.chip`.
-/

namespace Sys2Proof

/-- The arithmetic of the permutation index subtraction (spec/41_composer_a.md R163). -/
inductive IndexArith where
  | u32wrap
  | math
  deriving DecidableEq, Repr, Inhabited

/-- The byte order of a header image in BUF (spec/43_harness.md R195). -/
inductive HdrOrder where
  | wire
  | wordLE
  deriving DecidableEq, Repr, Inhabited

/-- Which four digest bytes are the most-significant word, and their order (spec/43_harness.md R198). -/
inductive DigestMsw where
  | firstBE
  | lastBE
  | lastLE
  deriving DecidableEq, Repr, Inhabited

/-- A midstate. The spec's type is opaque (spec/42_composer_b.md R183); a value of it is held as a byte string that
only `midAbsorb` makes and only `midResume` reads. DESIGN CHOICE (safe), log 10. -/
abbrev Mid := Bytes

/-- The parameters of R7, and `HC_BASE` (spec/20_memory.md R72), which a model takes as arguments. -/
structure Config where
  /-- `NCTX`, the number of digest context slots. -/
  nctx          : Nat
  /-- `BUF_SIZE`, the bytes of BUF. -/
  bufSize       : Nat
  /-- `NBLOCKS_W`, the width of the block counter of a digest context. -/
  nblocksW      : Nat
  /-- `MID_PREFIX`, the header bytes the midstate covers. -/
  midPrefix     : Nat
  /-- `HC_BASE`, the platform address of the block's window (R72). -/
  hcBase        : Nat
  /-- `N_INST`, the number of block instances in the platform. No rule of one instance depends on it: an instance has no
  identifier register and shares no state (spec/60_exceptions.md R235, log 18). -/
  nInst         : Nat
  /-- `PERM_TABLE` (R40); `TABLE_LENGTH` is its length (R11). -/
  permTable     : List Word
  /-- `BASE_TIMESTAMP`. -/
  baseTimestamp : Word
  /-- `INDEX_ARITH`. -/
  indexArith    : IndexArith
  /-- `PRIM_A1`, Composer A's fixed stage 1. -/
  primA1        : Bytes → Bytes64
  /-- `PRIM_A2`, Composer A's fixed stage 2. -/
  primA2        : Bytes → Bytes64
  /-- `PRIM_SEL[0..7]`, Composer A's selectable stages. -/
  primSel       : Fin 8 → Bytes → Bytes64
  /-- `PRIM_B1`. -/
  primB1        : Bytes → Bytes64
  /-- `PRIM_B2`. -/
  primB2        : Bytes → Bytes64
  /-- `PRIM_B3`. -/
  primB3        : Bytes → Bytes64
  /-- `PRIM_B4`. -/
  primB4        : Bytes → Bytes64
  /-- `MID_ABSORB` (R183). -/
  midAbsorb     : Bytes → Mid
  /-- `MID_RESUME` (R183). -/
  midResume     : Mid → Bytes → Bytes64
  /-- `HDR_ORDER`. -/
  hdrOrder      : HdrOrder
  /-- `DIGEST_MSW`. -/
  digestMsw     : DigestMsw
  deriving Inhabited

/-- `TABLE_LENGTH`, the number of entries of `PERM_TABLE` (R11). -/
def Config.tableLength (cfg : Config) : Nat := cfg.permTable.length

/-- A well-formed configuration: the bounds of R8 on `NCTX`, `BUF_SIZE` and `MID_PREFIX`, those of R7 and R72 on `N_INST` and
`HC_BASE`, a table that is not empty with bit 3 of every nibble 0 (R8), and the midstate law of R184. Two bounds are the model's:
`TABLE_LENGTH` fits the 32-bit register TLEN (spec/10_state.md R21; DEDUCED, log 17), and the block counter has at most the 32 bits
R136 gives it (spec/40_digest.md; DESIGN CHOICE, log 23). That the primitives are total functions to 64-byte strings is their
type. -/
structure Config.WellFormed (cfg : Config) : Prop where
  nctx        : 1 ≤ cfg.nctx ∧ cfg.nctx ≤ 16
  bufSize     : 4 ∣ cfg.bufSize ∧ 256 ≤ cfg.bufSize ∧ cfg.bufSize ≤ 65536
  nblocksW    : 1 ≤ cfg.nblocksW ∧ cfg.nblocksW ≤ 32
  midPrefix   : cfg.midPrefix ≤ 76
  hcBase      : 0x1000 ∣ cfg.hcBase
  nInst       : 1 ≤ cfg.nInst
  table       : 1 ≤ cfg.tableLength ∧ cfg.tableLength < 2 ^ 32
  nibbles     : ∀ w ∈ cfg.permTable, w &&& 0x88888888#32 = 0#32
  midstateLaw : ∀ h : Bytes, h.length = 80 →
    cfg.midResume (cfg.midAbsorb (h.take cfg.midPrefix)) (h.drop cfg.midPrefix) = cfg.primB1 h

/-- The well-formed configuration nearest to `cfg`: each number is brought within its bounds, an empty table gets one zero word,
bit 3 of every nibble is cleared, a table too long for TLEN is cut, and `PRIM_B1` on 80-byte inputs is what the midstate interface
gives. It changes no well-formed configuration (`wellFormedPart_eq`, Laws/Composer.lean), so every well-formed configuration is
one of these. DEDUCED from R8, safe, log 11. -/
def Config.wellFormedPart (cfg : Config) : Config :=
  { cfg with
    nctx := max 1 (min cfg.nctx 16)
    bufSize := max 256 (min (cfg.bufSize / 4 * 4) 65536)
    nblocksW := max 1 (min cfg.nblocksW 32)
    midPrefix := min cfg.midPrefix 76
    hcBase := cfg.hcBase / 0x1000 * 0x1000
    nInst := max 1 cfg.nInst
    permTable := if cfg.permTable.isEmpty then [0#32]
      else (cfg.permTable.take (2 ^ 32 - 1)).map (· &&& 0x77777777#32)
    primB1 := fun x =>
      if x.length = 80 then cfg.midResume (cfg.midAbsorb (x.take (min cfg.midPrefix 76))) (x.drop (min cfg.midPrefix 76))
      else cfg.primB1 x }

/-- The decided parameters at their values (R7; log 13). -/
def Config.decided (cfg : Config) : Config :=
  { cfg with
    nctx := 4
    bufSize := 4096
    nblocksW := 32
    midPrefix := 76
    indexArith := .u32wrap }

/-- The OPEN parameters (R7, R72): no value of them is known to any proof. -/
opaque Config.raw : Config

/-- The configuration of the modelled chip: the decided parameters at their values, the others those of any well-formed
configuration (R8 refuses the rest; log 11). -/
def Config.chip : Config := Config.raw.decided.wellFormedPart

/-- The value of draw number `n`: what a host read returns where the spec says any value (spec/20_memory.md R78 item 4,
spec/10_state.md R30). A free value, log 5. -/
opaque Config.freeWord : Nat → Word

/-- The byte at BUF address `a` that nothing has written since reset number `epoch` (spec/10_state.md R47: unspecified,
drawn at reset and stable until written). A free value, log 6. -/
opaque Config.unwrittenByte : (epoch a : Nat) → Byte

end Sys2Proof
end

