-- ==== Sys2Proof/Syntax.lean ====
section
/-!
DEFINITION. The commands of the block, one constructor per row of the opcode map (spec/30_encoding.md R93),
and the fault codes a command or a host write can raise (spec/60_exceptions.md R220).
-/

namespace Sys2Proof

/-- A command variant of R93. Only the digest-slot commands carry a field, CTX; every data operand is read
from an ARG register when the command is performed (R91). -/
inductive Instr where
  /-- DG_INIT, R145. -/
  | dgInit (c : BitVec 4)
  /-- DG_ABSORB, R146. -/
  | dgAbsorb (c : BitVec 4)
  /-- DG_FINAL, R147. -/
  | dgFinal (c : BitVec 4)
  /-- DG_DIGEST, R148. -/
  | dgDigest
  /-- PERM_READ, R168. -/
  | permRead
  /-- COMPOSE.A, R169. -/
  | composeA
  /-- COMPOSE.B, R187. -/
  | composeB
  /-- COMPOSE.B.MID, R188. -/
  | composeBMid
  /-- MIDSTATE.B, R186. -/
  | midstateB
  /-- TEST.A, R202. -/
  | testA
  /-- TEST.B, R202. -/
  | testB
  /-- TEST.B.MID, R202. -/
  | testBMid
  /-- SEARCH.A, R203. -/
  | searchA
  /-- SEARCH.B, R203. -/
  | searchB
  /-- SEARCH.B.MID, R203. -/
  | searchBMid
  /-- REGEN.A, R207. -/
  | regenA
  /-- REGEN.B, R207. -/
  | regenB
  /-- REGEN.B.MID, R207. -/
  | regenBMid
  deriving DecidableEq, Repr

/-- The faults of the block (R220). Taking one is a step of the machine (R223), not a stop of the model. -/
inductive FaultCode where
  /-- OPC not in the opcode map. -/
  | illegalOpcode
  /-- A field condition of R95. -/
  | reservedField
  /-- DG_ABSORB or DG_FINAL on a slot never initialized since reset. -/
  | ctxUninit
  /-- A named BUF range fails `InRange`. -/
  | bufRange
  /-- CMD written while STATUS.BUSY = 1. -/
  | cmdBusy
  /-- A form with MID = 1 while MIDREG is invalid. -/
  | midInvalid
  /-- PERM_READ past the table's end. -/
  | permIndex
  /-- A selected table word has a nibble of 8 or more. -/
  | badSelector
  /-- ARG or BUF written while STATUS.BUSY = 1. -/
  | hostConflict
  deriving DecidableEq, Repr

end Sys2Proof
end

