-- ==== Sys2Proof/WellFormed.lean ====
section
/-!
DEFINITION. When a command is well formed: its CTX field names a slot (spec/30_encoding.md R93: `c < NCTX`).
-/

namespace Sys2Proof

/-- `k` names a digest context slot (R93, R95 item 2). -/
def slotExists (cfg : Config) (k : BitVec 4) : Bool := decide (k.toNat < cfg.nctx)

/-- The only condition the opcode map puts on a command's fields, over a configuration. -/
def Instr.WellFormedFor (cfg : Config) : Instr → Bool
  | .dgInit c => slotExists cfg c
  | .dgAbsorb c => slotExists cfg c
  | .dgFinal c => slotExists cfg c
  | .dgDigest => true
  | .permRead => true
  | .composeA => true
  | .composeB => true
  | .composeBMid => true
  | .midstateB => true
  | .testA => true
  | .testB => true
  | .testBMid => true
  | .searchA => true
  | .searchB => true
  | .searchBMid => true
  | .regenA => true
  | .regenB => true
  | .regenBMid => true

/-- A well-formed command of the chip. -/
def Instr.WellFormed (i : Instr) : Bool := i.WellFormedFor Config.chip

end Sys2Proof
end

