-- ==== Sys2Proof/Decode.lean ====
section
/-!
DEFINITION. Decoding of a command word (spec/30_encoding.md R90-R96), total and rejecting by fault code, over a configuration
and on the chip, and the encoder from the same map.
-/

namespace Sys2Proof

/-- OPC, bits 31:24 (R90). -/
def opcField (w : Word) : BitVec 8 := w.extractLsb' 24 8

/-- CTX, bits 23:20 (R90). -/
def ctxField (w : Word) : BitVec 4 := w.extractLsb' 20 4

/-- SEL, bits 19:16 (R90). -/
def selField (w : Word) : BitVec 4 := w.extractLsb' 16 4

/-- MID, bit 15 (R90). -/
def midField (w : Word) : BitVec 1 := w.extractLsb' 15 1

/-- RSVD, bits 14:0 (R90). -/
def rsvdField (w : Word) : BitVec 15 := w.extractLsb' 0 15

/-- The operation codes of the opcode map (R94). -/
def legalOpcodes : List (BitVec 8) :=
  [0x01#8, 0x02#8, 0x03#8, 0x04#8, 0x10#8, 0x11#8, 0x12#8, 0x20#8, 0x21#8, 0x22#8]

/-- The operation codes whose CTX field names a slot (R95 items 2 and 3). -/
def slotOpcodes : List (BitVec 8) := [0x01#8, 0x02#8, 0x03#8]

/-- The operation codes that take a composer select of 0 or 1 (R95 item 5). -/
def composerOpcodes : List (BitVec 8) := [0x11#8, 0x20#8, 0x21#8, 0x22#8]

/-- The operation codes that need SEL = 0 (R95 item 4). -/
def selZeroOpcodes : List (BitVec 8) := [0x01#8, 0x02#8, 0x03#8, 0x04#8, 0x10#8]

/-- The seven conditions of R95, in its order. -/
def fieldConditions (cfg : Config) (opc : BitVec 8) (ctx sel : BitVec 4) (mid : BitVec 1) (rsvd : BitVec 15) :
    List Bool :=
  [ rsvd != 0,
    slotOpcodes.contains opc && !slotExists cfg ctx,
    !slotOpcodes.contains opc && ctx != 0,
    selZeroOpcodes.contains opc && sel != 0,
    composerOpcodes.contains opc && decide (1 < sel.toNat),
    opc == 0x12#8 && sel != 1,
    mid == 1 && !(composerOpcodes.contains opc && sel == 1) ]

/-- The word breaks field legality (R95). -/
def fieldsIllegal (cfg : Config) (w : Word) : Bool :=
  (fieldConditions cfg (opcField w) (ctxField w) (selField w) (midField w) (rsvdField w)).any id

/-- The row of R93 a word that passed both checks selects: composer A, B, or B with the midstate. -/
def byComposer (sel : BitVec 4) (mid : BitVec 1) (a b bMid : Instr) : Instr :=
  if sel = 0 then a else if mid = 0 then b else bMid

/-- Decoding over a configuration (R96): the OPC check, then field legality, then the row of R93. -/
def decodeFor (cfg : Config) (w : Word) : Except FaultCode Instr :=
  if !legalOpcodes.contains (opcField w) then .error .illegalOpcode
  else if fieldsIllegal cfg w then .error .reservedField
  else match (opcField w).toNat with
    | 0x01 => .ok (.dgInit (ctxField w))
    | 0x02 => .ok (.dgAbsorb (ctxField w))
    | 0x03 => .ok (.dgFinal (ctxField w))
    | 0x04 => .ok .dgDigest
    | 0x10 => .ok .permRead
    | 0x11 => .ok (byComposer (selField w) (midField w) .composeA .composeB .composeBMid)
    | 0x12 => .ok .midstateB
    | 0x20 => .ok (byComposer (selField w) (midField w) .testA .testB .testBMid)
    | 0x21 => .ok (byComposer (selField w) (midField w) .searchA .searchB .searchBMid)
    | 0x22 => .ok (byComposer (selField w) (midField w) .regenA .regenB .regenBMid)
    | _ => .error .illegalOpcode

/-- Decoding on the chip. -/
def decode (w : Word) : Except FaultCode Instr := decodeFor Config.chip w

/-- What the decoder reads from an instruction whose bits are `w`, numbered as the opcode table numbers them. A command
is one 32-bit word (R92), so the table's `nbits` is 32 and a longer number is no command. -/
def decodeTableWord (nbits w : Nat) : Option Instr :=
  if nbits ≤ 32 ∧ w < 2 ^ 32 then (decode (BitVec.ofNat 32 w)).toOption else none

/-- A command word from its fields (R90), RSVD = 0. -/
def commandWord (opc : BitVec 8) (ctx sel : BitVec 4) (mid : BitVec 1) : Word :=
  opc ++ ctx ++ sel ++ mid ++ 0#15

/-- The command word of an instruction (R93). -/
def encode : Instr → Word
  | .dgInit c => commandWord 0x01 c 0 0
  | .dgAbsorb c => commandWord 0x02 c 0 0
  | .dgFinal c => commandWord 0x03 c 0 0
  | .dgDigest => commandWord 0x04 0 0 0
  | .permRead => commandWord 0x10 0 0 0
  | .composeA => commandWord 0x11 0 0 0
  | .composeB => commandWord 0x11 0 1 0
  | .composeBMid => commandWord 0x11 0 1 1
  | .midstateB => commandWord 0x12 0 1 0
  | .testA => commandWord 0x20 0 0 0
  | .testB => commandWord 0x20 0 1 0
  | .testBMid => commandWord 0x20 0 1 1
  | .searchA => commandWord 0x21 0 0 0
  | .searchB => commandWord 0x21 0 1 0
  | .searchBMid => commandWord 0x21 0 1 1
  | .regenA => commandWord 0x22 0 0 0
  | .regenB => commandWord 0x22 0 1 0
  | .regenBMid => commandWord 0x22 0 1 1

end Sys2Proof
end

