-- ==== Sys2Proof/Machine/Bytes.lean ====
section
/-!
DEFINITION. Byte order and slices of byte strings (spec/00_scope.md R15).
-/

namespace Sys2Proof.Machine

/-- `zeros(n)`. -/
def zeros (n : Nat) : Bytes := List.replicate n 0#8

/-- `s[pos..pos+n)`. -/
def slice (s : Bytes) (pos n : Nat) : Bytes := (s.drop pos).take n

/-- `BE32` of the four bytes of `s` from `pos` on. -/
def readBE32 (s : Bytes) (pos : Nat) : Word :=
  s.getD pos 0 ++ s.getD (pos + 1) 0 ++ s.getD (pos + 2) 0 ++ s.getD (pos + 3) 0

/-- `LE32` of the four bytes of `s` from `pos` on. -/
def readLE32 (s : Bytes) (pos : Nat) : Word :=
  s.getD (pos + 3) 0 ++ s.getD (pos + 2) 0 ++ s.getD (pos + 1) 0 ++ s.getD pos 0

/-- `be32(w)`: most significant byte first. -/
def be32 (w : Word) : Bytes :=
  [w.extractLsb' 24 8, w.extractLsb' 16 8, w.extractLsb' 8 8, w.extractLsb' 0 8]

/-- `le32(w)`: least significant byte first. -/
def le32 (w : Word) : Bytes :=
  [w.extractLsb' 0 8, w.extractLsb' 8 8, w.extractLsb' 16 8, w.extractLsb' 24 8]

/-- `first32(s)` of a 64-byte string. -/
def first32 (x : Bytes64) : Bytes := x.toList.take 32

end Sys2Proof.Machine
end

