-- ==== Sys2Proof/Machine/State.lean ====
section
/-!
DEFINITION. The state of one block instance (spec/10_state.md R20) with the host's coming steps, its reset value (R47),
and the reasons a step of the model stops.
-/

namespace Sys2Proof.Machine

/-- Why the machine stops with a fault of the model. The block's own faults (R220) are no stops: they are taken, and the
next state holds them in STATUS. -/
inductive Fault where
  /-- A host access at an address outside the block's window: below `HC_BASE`, or at an offset at or above 0x1000 + BUF_SIZE
  (R32, spec/20_memory.md R72). Raised by a host turn.
  Safe: nothing is claimed of such a run. Log 14. -/
  | outsideBlock
  deriving DecidableEq, Repr

/-- Why a step is refused. -/
inductive Refusal where
  /-- An instruction that has no meaning yet; raised by `exec` only. Safe. -/
  | notModelled (mnemonic : String)
  /-- A host access of a width or alignment R68 excludes ("a model refuses a host program that makes one"). Raised by a
  host turn. Safe. Log 14. -/
  | hostAccessShape
  deriving DecidableEq, Repr

/-- The eight words of the chaining state, `V[0..7]`, also the working words A..H (spec/10_state.md R33, R134). -/
structure Chaining where
  a : Word
  b : Word
  c : Word
  d : Word
  e : Word
  f : Word
  g : Word
  h : Word
  deriving DecidableEq, Repr

/-- Whether a context slot was initialized since reset (R34). -/
inductive CtxStatus where
  | uninit
  | ready
  deriving DecidableEq, Repr

/-- A digest context slot (R33). -/
structure Ctx where
  /-- `st`. -/
  st      : CtxStatus
  /-- `V[0..7]`. -/
  v       : Chaining
  /-- `BLK`, the buffered partial block. -/
  blk     : Vector Byte 64
  /-- `NUM`, the number of buffered bytes, 6 bits. -/
  num     : BitVec 6
  /-- `NBLOCKS`, the blocks compressed since initialization, kept below 2 to the `NBLOCKS_W` (32 on the chip; log 23). -/
  nblocks : Word
  deriving DecidableEq, Repr

/-- The composer select of a command: SEL 0 or 1 (spec/30_encoding.md R90). -/
inductive Composer where
  | A
  | B
  deriving DecidableEq, Repr

/-- The search engine's registers `SRCH` (R38). -/
structure Srch where
  /-- The last attempted nonce. -/
  n       : Word
  /-- `nonce_max`. -/
  max     : Word
  /-- The target's most-significant word, latched at the start step. -/
  tmsw    : Word
  /-- The work record's BUF address. -/
  wr      : Word
  /-- The composer select. -/
  sel     : Composer
  /-- The midstate use bit. -/
  mid     : Bool
  /-- 1 while a search is under way. -/
  started : Bool
  deriving DecidableEq, Repr

/-- The width of a host access (spec/20_memory.md R68). -/
inductive Width where
  | byte
  | half
  | word
  | dword
  deriving DecidableEq, Repr

/-- One atomic step of the host (spec/20_memory.md R75). Addresses are the platform's; the block's window begins at `HC_BASE`
(R72). A byte write carries its byte in the low 8 bits of the bus word. DESIGN CHOICE (safe), log 22. -/
inductive HostStep where
  /-- Read the register or the BUF bytes at an address. -/
  | read (width : Width) (addr : Nat)
  /-- Write the register or the BUF bytes at an address. -/
  | write (width : Width) (addr : Nat) (v : Word)
  /-- Assert reset (spec/70_reset_and_hazards.md R250). -/
  | reset
  deriving DecidableEq, Repr

/-- Whose atomic step comes next (spec/20_memory.md R76: host and engine steps interleave in any order). -/
inductive Turn where
  | engine
  | host (h : HostStep)
  deriving DecidableEq, Repr

/-- A host register (R21), by its offset in the window. -/
inductive Reg where
  | cmd
  | status
  | arg (i : Fin 4)
  | result
  | cancel
  | id
  | tlen
  | bufsz
  | nctxr
  | reserved
  deriving DecidableEq, Repr

/-- The bytes of BUF written since reset, as address and byte pairs (R43). The canonical form is `Memory.wf`. -/
abbrev Memory := List Host.Cell

/-- The state of one block instance (R20), and the model's own fields `epoch`, `draws`, `agenda`, `observed`. -/
structure State where
  /-- STATUS.BUSY (R23). -/
  busy     : Bool
  /-- STATUS.FAULT (R23). -/
  fault    : Bool
  /-- STATUS.FOUND (R23). -/
  found    : Bool
  /-- STATUS.FCODE (R23). -/
  fcode    : Byte
  /-- ARG0 (R29). -/
  arg0     : Word
  /-- ARG1 (R29). -/
  arg1     : Word
  /-- ARG2 (R29). -/
  arg2     : Word
  /-- ARG3 (R29). -/
  arg3     : Word
  /-- RESULT (R30). -/
  result   : Word
  /-- CANCEL bit 0 (R31). -/
  cancel   : Bool
  /-- `CTX[0..NCTX-1]` (R33), with room for the 16 slots R7 allows; those from `NCTX` on are no slots of the block, and nothing
  reads or writes them. DESIGN CHOICE (safe), log 24. -/
  ctx      : Vector Ctx 16
  /-- `MIDREG.valid` (R37); STATUS.MIDVALID is this bit (R27). -/
  midValid : Bool
  /-- `MIDREG.S` (R37). -/
  midS     : Mid
  /-- `SRCH` (R38). -/
  srch     : Srch
  /-- `PEND` (R39). -/
  pend     : Option Word
  /-- `BUF` (R43). -/
  buf      : Memory
  /-- How many resets came before this one; picks the free values of unwritten BUF bytes. The model's own, log 6. -/
  epoch    : Nat
  /-- The counter of the free values host reads return while BUSY = 1. The model's own, log 5. -/
  draws    : Nat
  /-- Whose turns come next; the engine's, when it is empty. The model's own, log 1. -/
  agenda   : List Turn
  /-- What the host's reads returned, newest first. The model's own, log 4. -/
  observed : List Word
  deriving DecidableEq, Repr

/-- A context slot after reset (R47): UNINIT. Its other fields are unspecified there; they hold zeros. DESIGN CHOICE
(unsafe), log 7: no rule reads them before it writes them (R251). -/
def Ctx.atReset : Ctx :=
  { st := .uninit
    v := ⟨0, 0, 0, 0, 0, 0, 0, 0⟩
    blk := ⟨(List.replicate 64 0#8).toArray, rfl⟩
    num := 0
    nblocks := 0 }

/-- `SRCH` after reset (R47): not started. Its other fields are unspecified there; they hold zeros. DESIGN CHOICE
(unsafe), log 9. -/
def Srch.atReset : Srch :=
  { n := 0, max := 0, tmsw := 0, wr := 0, sel := .A, mid := false, started := false }

/-- The state right after the first reset (R47, spec/70_reset_and_hazards.md R251): idle, nothing listed in BUF, no turn
on the agenda. `MIDREG.S` is unspecified there; it holds the empty string. DESIGN CHOICE (unsafe), log 8. -/
def State.reset : State :=
  { busy := false
    fault := false
    found := false
    fcode := 0
    arg0 := 0
    arg1 := 0
    arg2 := 0
    arg3 := 0
    result := 0
    cancel := false
    ctx := ⟨(List.replicate 16 Ctx.atReset).toArray, rfl⟩
    midValid := false
    midS := []
    srch := Srch.atReset
    pend := none
    buf := []
    epoch := 0
    draws := 0
    agenda := []
    observed := [] }

end Sys2Proof.Machine
end

