-- ==== Sys2Proof/Machine/Ops.lean ====
section
/-!
DEFINITION. The named operations on the state: BUF (spec/20_memory.md R60-R65), registers and context slots, completion of a
command (R77), and taking a fault (spec/60_exceptions.md R222-R224). The spec has no return from a fault (R226): only
reset clears it.
-/

namespace Sys2Proof.Machine

/-! ### BUF -/

/-- The canonical form, for a BUF of `size` bytes: addresses strictly rising, each one a byte of BUF. An unlisted byte was
never written since reset; what it reads as is a free value, equal to no entry that could be dropped (log 6). -/
abbrev Memory.wf (m : Memory) (size : Nat) : Prop :=
  (m.map Prod.fst).Pairwise (· < ·) ∧ ∀ k ∈ m.map Prod.fst, k < size

/-- The byte written at an address since reset, if any. -/
def Memory.cell? : Memory → Nat → Option Byte
  | [], _ => none
  | (k, b) :: m, a => if k = a then some b else Memory.cell? m a

/-- The list with the entry for an address set, in address order. -/
def Memory.insertCell : Memory → Nat → Byte → Memory
  | [], a, b => [(a, b)]
  | (k, c) :: m, a, b =>
    if a < k then (a, b) :: (k, c) :: m
    else if a = k then (a, b) :: m
    else (k, c) :: Memory.insertCell m a b

/-- Write one byte of a BUF of `size` bytes. An address of `size` or more names no byte (R61). -/
def Memory.putByte (m : Memory) (size a : Nat) (b : Byte) : Memory :=
  if a < size then m.insertCell a b else m

/-- Write a byte string from an address on, its first byte lowest (R65). -/
def Memory.putBytes (size : Nat) : Memory → Nat → Bytes → Memory
  | m, _, [] => m
  | m, a, b :: bs => Memory.putBytes size (m.putByte size a b) (a + 1) bs

/-- What the byte at BUF address `a` holds (R43): the byte last written since reset, else the free value reset left
there (R47; log 6). -/
def State.byteAt (s : State) (a : Nat) : Byte :=
  (s.buf.cell? a).getD (Config.unwrittenByte s.epoch a)

/-- `MemRead(a, n)` (R64). -/
def State.memRead (s : State) (a n : Nat) : Bytes :=
  (List.range n).map fun i => s.byteAt (a + i)

/-- `MemWrite(a, |bs|, bs)` (R65). -/
def State.memWrite (s : State) (cfg : Config) (a : Nat) (bs : Bytes) : State :=
  { s with buf := s.buf.putBytes cfg.bufSize a bs }

/-- `InRange(a, n)` (R62), on natural numbers, without wrap. -/
def inRange (cfg : Config) (a : Word) (n : Nat) : Bool := decide (a.toNat + n ≤ cfg.bufSize)

/-! ### Registers and context slots -/

/-- `CTX[k]`. A select of `NCTX` or more reaches no command (R95). -/
def State.slot (s : State) (k : BitVec 4) : Ctx := s.ctx[k.toNat]

/-- Write `CTX[k]`. -/
def State.setSlot (s : State) (k : BitVec 4) (c : Ctx) : State :=
  { s with ctx := s.ctx.set k.toNat c }

/-- `RESULT <- v` (R30). -/
def State.setResult (s : State) (v : Word) : State := { s with result := v }

/-- `MIDREG.S <- m; MIDREG.valid <- 1` (R37, R186). -/
def State.setMidstate (s : State) (m : Mid) : State := { s with midS := m, midValid := true }

/-- Write the search engine's registers (R38). -/
def State.setSrch (s : State) (r : Srch) : State := { s with srch := r }

/-- `ARG[i] <- v` (R29); only the host does so. -/
def State.setArg (s : State) (i : Fin 4) (v : Word) : State :=
  match i with
  | 0 => { s with arg0 := v }
  | 1 => { s with arg1 := v }
  | 2 => { s with arg2 := v }
  | 3 => { s with arg3 := v }

/-- `ARG[i]` (R29). -/
def State.arg (s : State) (i : Fin 4) : Word :=
  match i with
  | 0 => s.arg0
  | 1 => s.arg1
  | 2 => s.arg2
  | 3 => s.arg3

/-- Write CANCEL (R31): only bit 0 of the word is kept. -/
def State.setCancel (s : State) (v : Word) : State := { s with cancel := v.getLsbD 0 }

/-- Issue a command word (R22): `PEND <- w; STATUS.BUSY <- 1`. -/
def State.issue (s : State) (w : Word) : State := { s with pend := some w, busy := true }

/-- Completion (R77): `PEND <- none; STATUS.BUSY <- 0`. -/
def State.complete (s : State) : State := { s with pend := none, busy := false }

/-- `FINISH(found, d)` but for the digest's bytes (R206): RESULT, FOUND, and the search and the command end. -/
def State.endSearch (s : State) (found : Bool) : State :=
  { s with
    result := s.srch.n
    found := found
    srch := { s.srch with started := false }
    pend := none
    busy := false }

/-! ### The model's own fields -/

/-- The host reads a word: it is recorded, and the next read's draw is a fresh one (log 4, log 5). -/
def State.observe (s : State) (v : Word) : State :=
  { s with observed := v :: s.observed, draws := s.draws + 1 }

/-- The first turn of the agenda is taken. -/
def State.dropTurn (s : State) : State := { s with agenda := s.agenda.tail }

/-- Put a command word where the engine's very next step performs it: issued, at the head of the agenda, and no search
under way (log 3). -/
def State.latchCommand (s : State) (w : Word) : State :=
  { s with
    pend := some w
    busy := true
    srch := { s.srch with started := false }
    agenda := .engine :: s.agenda }

/-! ### Taking a fault -/

/-- The code of a fault (R220). -/
def faultNumber : FaultCode → Byte
  | .illegalOpcode => 0x01
  | .reservedField => 0x02
  | .ctxUninit => 0x03
  | .bufRange => 0x04
  | .cmdBusy => 0x05
  | .midInvalid => 0x06
  | .permIndex => 0x07
  | .badSelector => 0x08
  | .hostConflict => 0x09

/-- Fault entry (R223): FCODE keeps the first code since reset; the pending command and a search are abandoned; nothing
else changes. -/
def State.faultEntry (s : State) (f : FaultCode) : State :=
  { s with
    fcode := if s.fault then s.fcode else faultNumber f
    fault := true
    pend := none
    srch := { s.srch with started := false }
    busy := false }

/-- The first condition that holds, in the order given (R222). -/
def firstFault : List (Bool × FaultCode) → Option FaultCode
  | [] => none
  | (cond, f) :: rest => if cond then some f else firstFault rest

/-- Perform an effect unless a check fails (R222, R224): the first failing check is taken as a fault, before any write. -/
def State.guarded (s : State) (checks : List (Bool × FaultCode)) (effect : State → State) : State :=
  match firstFault checks with
  | some f => s.faultEntry f
  | none => effect s

/-- Use a result that may raise a fault (R16: `raise` ends the command): on a fault nothing of `effect` happens. -/
def State.orFault {α : Type} (s : State) (r : Except FaultCode α) (effect : α → State) : State :=
  match r with
  | .error f => s.faultEntry f
  | .ok x => effect x

/-- The host asserts reset (spec/70_reset_and_hazards.md R250): the whole block goes to the reset values of R47, and
every BUF byte is drawn anew. The host's own agenda and record stay (log 6). -/
def State.hostReset (s : State) : State :=
  { State.reset with
    epoch := s.epoch + 1
    draws := s.draws
    agenda := s.agenda
    observed := s.observed }

end Sys2Proof.Machine
end

