-- ==== Sys2Proof/Machine/Operands.lean ====
section
/-!
DEFINITION. The operand forms: header images, nonce and timestamp fields, digest and target words
(spec/43_harness.md R195-R199), work records (spec/10_state.md R44).
-/

namespace Sys2Proof.Machine

/-- Each 4-byte group reversed (R195, `WORD_LE`). -/
def swapWords : Bytes → Bytes
  | a :: b :: c :: d :: rest => d :: c :: b :: a :: swapWords rest
  | rest => rest

/-- `NORM(img)` (R195). -/
def normHeader (cfg : Config) (img : Bytes) : Bytes :=
  match cfg.hdrOrder with
  | .wire => img
  | .wordLE => swapWords img

/-- The 80-byte header image at BUF address `a`, normalized: `NORM(MemRead(a, 80))`. -/
def State.headerAt (s : State) (cfg : Config) (a : Word) : Bytes := normHeader cfg (s.memRead a.toNat 80)

/-- The nonce as the header image holds it (R196). -/
def nonceBytes (cfg : Config) (n : Word) : Bytes :=
  match cfg.hdrOrder with
  | .wire => be32 n
  | .wordLE => le32 n

/-- `SETNONCE(wr, n)` (R196). -/
def State.setNonce (s : State) (cfg : Config) (wr n : Word) : State :=
  s.memWrite cfg (wr.toNat + 76) (nonceBytes cfg n)

/-- `TSF(h)`, the timestamp field of a normalized header (R197). -/
def timestampOf (h : Bytes) : Word := readBE32 h 68

/-- `DMSW(d)`, the most-significant word of a digest (R198). -/
def digestMsw (cfg : Config) (d : Bytes) : Word :=
  match cfg.digestMsw with
  | .firstBE => readBE32 d 0
  | .lastBE => readBE32 d 28
  | .lastLE => readLE32 d 28

/-- `TMSW(ta)`, the target's most-significant word (R199). -/
def State.targetMsw (s : State) (ta : Word) : Word := readBE32 (s.memRead ta.toNat 4) 0

/-- The digest slot of the work record at `wr` receives a digest (R44). -/
def State.setDigestSlot (s : State) (cfg : Config) (wr : Word) (d : Bytes) : State :=
  s.memWrite cfg (wr.toNat + 80) d

end Sys2Proof.Machine
end

