-- ==== Sys2Proof/Machine/Chains.lean ====
section
/-!
DEFINITION. The permutation table, the stage multiplexer and the two chain composers (spec/41_composer_a.md R160-R166,
spec/42_composer_b.md R180-R185), and the harness's dispatch over them (spec/43_harness.md R200).
-/

namespace Sys2Proof.Machine

/-- `INDEX(t)` (R163). -/
def permIndexOf (cfg : Config) (t : Word) : Nat :=
  match cfg.indexArith with
  | .u32wrap => (t - cfg.baseTimestamp).toNat % cfg.tableLength
  | .math => (((t.toNat : Int) - (cfg.baseTimestamp.toNat : Int)) % (cfg.tableLength : Int)).toNat

/-- `PERM_TABLE[i]`; every command keeps `i` below `TABLE_LENGTH`. -/
def permWord (cfg : Config) (i : Nat) : Word := cfg.permTable.getD i 0

/-- Nibble k of a table word, nibble 0 least significant (R161). -/
def nibble (w : Word) (k : Nat) : BitVec 4 := w.extractLsb' (4 * k) 4

/-- The selector sequence of a table word, nibble 0 first (R164). -/
def selectorsOf (w : Word) : List (BitVec 4) := (List.range 8).map (nibble w)

/-- Some selector of the sequence is 8 or more. -/
def selectorsBad (sels : List (BitVec 4)) : Bool := sels.any fun v => decide (8 ≤ v.toNat)

/-- The selector sequence of timestamp `t` (R164). -/
def selectors (cfg : Config) (t : Word) : List (BitVec 4) := selectorsOf (permWord cfg (permIndexOf cfg t))

/-- `SELBAD(t)` (R164). -/
def selBad (cfg : Config) (t : Word) : Bool := selectorsBad (selectors cfg t)

/-- `SMX(v, x)` (R165), for a selector in 0..7: `CHAIN_A` stops on any other before it runs a stage. -/
def smx (cfg : Config) (v : BitVec 4) (x : Bytes64) : Bytes64 :=
  cfg.primSel (Fin.ofNat 8 v.toNat) x.toList

/-- The ten stages of Composer A (R166): two fixed, then one per selector; the digest is the first 32 bytes. -/
def stagesA (cfg : Config) (sels : List (BitVec 4)) (h : Bytes) : Bytes :=
  first32 (sels.foldl (fun x v => smx cfg v x) (cfg.primA2 (cfg.primA1 h).toList))

/-- `CHAIN_A(h, t)` (R166): the digest and the permutation index, or BAD_SELECTOR before any stage runs. -/
def chainA (cfg : Config) (h : Bytes) (t : Word) : Except FaultCode (Bytes × Word) :=
  if selBad cfg t then .error .badSelector
  else .ok (stagesA cfg (selectors cfg t) h, BitVec.ofNat 32 (permIndexOf cfg t))

/-- Stages 2 to 4 of Composer B, and its output (R181, R185). -/
def tailB (cfg : Config) (a : Bytes64) : Bytes :=
  first32 (cfg.primB4 (cfg.primB3 (cfg.primB2 a.toList).toList).toList)

/-- `CHAIN_B(h)` (R181). -/
def chainB (cfg : Config) (h : Bytes) : Bytes := tailB cfg (cfg.primB1 h)

/-- The midstate of a normalized header: `MID_ABSORB(h[0..MID_PREFIX))` (R182, R186). -/
def midstateOf (cfg : Config) (h : Bytes) : Mid := cfg.midAbsorb (h.take cfg.midPrefix)

/-- `CHAIN_B_MID(S, h)` (R185). -/
def chainBMid (cfg : Config) (m : Mid) (h : Bytes) : Bytes :=
  tailB cfg (cfg.midResume m (h.drop cfg.midPrefix))

/-- `CHAIN(sel, mid, wr)` of the harness (R200): the digest and the index, 0 for Composer B. -/
def State.chain (s : State) (cfg : Config) (sel : Composer) (mid : Bool) (wr : Word) :
    Except FaultCode (Bytes × Word) :=
  match sel, mid with
  | .A, _ => chainA cfg (s.headerAt cfg wr) (timestampOf (s.headerAt cfg wr))
  | .B, false => .ok (chainB cfg (s.headerAt cfg wr), 0)
  | .B, true => .ok (chainBMid cfg s.midS (s.headerAt cfg wr), 0)

end Sys2Proof.Machine
end

