-- ==== Sys2Proof/Machine/ComposerCommands.lean ====
section
/-!
DEFINITION. PERM_READ, COMPOSE and MIDSTATE (spec/41_composer_a.md R168, R169, spec/42_composer_b.md R186-R188), each over any
configuration, and the meanings `exec` calls, on the chip's.
-/

namespace Sys2Proof.Machine

/-- PERM_READ over a configuration (R168): the index is not reduced. -/
def permRead (cfg : Config) (s : State) : State :=
  s.guarded [(decide (cfg.tableLength ≤ s.arg0.toNat), .permIndex)]
    fun s => (s.setResult (permWord cfg s.arg0.toNat)).complete

/-- The range checks of COMPOSE (R169, R187): 80 header bytes at ARG0, 32 digest bytes at ARG2. -/
def composeRanges (cfg : Config) (s : State) : List (Bool × FaultCode) :=
  [(!inRange cfg s.arg0 80, .bufRange), (!inRange cfg s.arg2 32, .bufRange)]

/-- A composer's digest goes to ARG2 and its index to RESULT, and the command completes. -/
def State.composed (s : State) (cfg : Config) (d : Bytes) (i : Word) : State :=
  ((s.memWrite cfg s.arg2.toNat d).setResult i).complete

/-- COMPOSE.A over a configuration (R169): the timestamp is ARG1. -/
def composeA (cfg : Config) (s : State) : State :=
  s.guarded (composeRanges cfg s ++ [(selBad cfg s.arg1, .badSelector)])
    fun s => s.orFault (chainA cfg (s.headerAt cfg s.arg0) s.arg1) fun r => s.composed cfg r.1 r.2

/-- COMPOSE.B over a configuration (R187). -/
def composeB (cfg : Config) (s : State) : State :=
  s.guarded (composeRanges cfg s) fun s => s.composed cfg (chainB cfg (s.headerAt cfg s.arg0)) 0

/-- COMPOSE.B.MID over a configuration (R188): the held midstate is used as it is (R262). -/
def composeBMid (cfg : Config) (s : State) : State :=
  s.guarded ((!s.midValid, .midInvalid) :: composeRanges cfg s)
    fun s => s.composed cfg (chainBMid cfg s.midS (s.headerAt cfg s.arg0)) 0

/-- MIDSTATE.B over a configuration (R186): all 80 bytes must be in range. -/
def midstateB (cfg : Config) (s : State) : State :=
  s.guarded [(!inRange cfg s.arg0 80, .bufRange)]
    fun s => (s.setMidstate (midstateOf cfg (s.headerAt cfg s.arg0))).complete

/-- PERM_READ. -/
def execPermRead (s : State) : Host.Outcome State Fault Refusal := .next (permRead Config.chip s)

/-- COMPOSE.A. -/
def execComposeA (s : State) : Host.Outcome State Fault Refusal := .next (composeA Config.chip s)

/-- COMPOSE.B. -/
def execComposeB (s : State) : Host.Outcome State Fault Refusal := .next (composeB Config.chip s)

/-- COMPOSE.B.MID. -/
def execComposeBMid (s : State) : Host.Outcome State Fault Refusal := .next (composeBMid Config.chip s)

/-- MIDSTATE.B. -/
def execMidstateB (s : State) : Host.Outcome State Fault Refusal := .next (midstateB Config.chip s)

end Sys2Proof.Machine
end

