-- ==== Sys2Proof/Machine/Sm3.lean ====
section
/-!
DEFINITION. The digest primitive (spec/40_digest.md): functions and constants (R121-R128), message expansion
(R129-R132), compression (R133-R135), and the streaming interface (R136-R143).
-/

namespace Sys2Proof.Machine

/-- `rotl(x, n)` (spec/00_scope.md R14): by `n mod 32` positions. -/
def rotl (x : Word) (n : Nat) : Word := (x <<< (n % 32)) ||| (x >>> (32 - n % 32))

/-- The initialization vector (R121). -/
def digestIV : Chaining :=
  ⟨0x7380166F, 0x4914B2B9, 0x172442D7, 0xDA8A0600, 0xA96F30BC, 0x163138AA, 0xE38DEE4D, 0xB0FB0E4E⟩

/-- `P0` (R122). -/
def p0 (x : Word) : Word := x ^^^ rotl x 9 ^^^ rotl x 17

/-- `P1` (R123). -/
def p1 (x : Word) : Word := x ^^^ rotl x 15 ^^^ rotl x 23

/-- `FF` (R124). -/
def ff (j : Nat) (x y z : Word) : Word :=
  if j ≤ 15 then x ^^^ y ^^^ z else (x &&& y) ||| (x &&& z) ||| (y &&& z)

/-- `GG` (R125). -/
def gg (j : Nat) (x y z : Word) : Word :=
  if j ≤ 15 then x ^^^ y ^^^ z else (x &&& y) ||| (~~~x &&& z)

/-- `T(j)` (R126). -/
def roundConstant (j : Nat) : Word := if j ≤ 15 then 0x79CC4519 else 0x7A879D8A

/-- `W[0..15]`, the block's words read big-endian (R130). -/
def blockWords (m : Bytes) : List Word := (List.range 16).map fun i => readBE32 m (4 * i)

/-- `W[j]` for j in 16..67, from the words before it (R131). -/
def expandWord (w : List Word) (j : Nat) : Word :=
  p1 (w.getD (j - 16) 0 ^^^ w.getD (j - 9) 0 ^^^ rotl (w.getD (j - 3) 0) 15)
    ^^^ rotl (w.getD (j - 13) 0) 7 ^^^ w.getD (j - 6) 0

/-- `W[0..67]` (R129, R131). -/
def expansion (m : Bytes) : List Word :=
  (List.range' 16 52).foldl (fun w j => w ++ [expandWord w j]) (blockWords m)

/-- `W1[j]` (R132). -/
def secondaryWord (w : List Word) (j : Nat) : Word := w.getD j 0 ^^^ w.getD (j + 4) 0

/-- `SS1` of round j (R133). -/
def roundSS1 (r : Chaining) (j : Nat) : Word := rotl (rotl r.a 12 + r.e + rotl (roundConstant j) j) 7

/-- `TT1` of round j (R133); `SS2 = SS1 ^ rotl(A, 12)`. -/
def roundTT1 (r : Chaining) (j : Nat) (w1 : Word) : Word :=
  ff j r.a r.b r.c + r.d + (roundSS1 r j ^^^ rotl r.a 12) + w1

/-- `TT2` of round j (R133). -/
def roundTT2 (r : Chaining) (j : Nat) (w : Word) : Word :=
  gg j r.e r.f r.g + r.h + roundSS1 r j + w

/-- Round j: the working words after it (R134). -/
def digestRound (w : List Word) (r : Chaining) (j : Nat) : Chaining :=
  { a := roundTT1 r j (secondaryWord w j)
    b := r.a
    c := rotl r.b 9
    d := r.c
    e := p0 (roundTT2 r j (w.getD j 0))
    f := r.e
    g := rotl r.f 19
    h := r.g }

/-- The XOR of the result with the chaining state, word by word (R135, the feed-forward). -/
def feedForward (r v : Chaining) : Chaining :=
  ⟨r.a ^^^ v.a, r.b ^^^ v.b, r.c ^^^ v.c, r.d ^^^ v.d, r.e ^^^ v.e, r.f ^^^ v.f, r.g ^^^ v.g, r.h ^^^ v.h⟩

/-- `COMPRESS(V, M)` (R135). -/
@[irreducible] def compress (v : Chaining) (m : Bytes) : Chaining :=
  feedForward ((List.range 64).foldl (digestRound (expansion m)) v) v

/-! ### Streaming -/

/-- The 64 bytes with `s` put in from `pos` on (bytes past the end are dropped; the rules never write there). -/
def patchBlock (blk : Vector Byte 64) (pos : Nat) (s : Bytes) : Vector Byte 64 :=
  ⟨((blk.toList.take pos ++ s ++ blk.toList.drop (pos + s.length)).take 64).toArray, by simp; omega⟩

/-- `INIT` (R137). -/
def Ctx.init : Ctx :=
  { st := .ready
    v := digestIV
    blk := ⟨(List.replicate 64 0#8).toArray, rfl⟩
    num := 0
    nblocks := 0 }

/-- The block counter after one more block (R136): modulo 2 to the `NBLOCKS_W`. -/
def countBlock (cfg : Config) (n : Word) : Word := BitVec.ofNat 32 ((n.toNat + 1) % 2 ^ cfg.nblocksW)

/-- One compression of ABSORB (R136): it counts in NBLOCKS. -/
def Ctx.absorbBlock (cfg : Config) (c : Ctx) (m : Bytes) : Ctx :=
  { c with v := compress c.v m, nblocks := countBlock cfg c.nblocks }

/-- The loop of ABSORB over `n` full blocks of `s` (R138), and what is left of `s`. -/
def Ctx.absorbBlocks (cfg : Config) : Nat → Ctx → Bytes → Ctx × Bytes
  | 0, c, s => (c, s)
  | n + 1, c, s => Ctx.absorbBlocks cfg n (c.absorbBlock cfg (s.take 64)) (s.drop 64)

/-- ABSORB from a block boundary (R138): full blocks while 64 bytes are left, then the rest is buffered. -/
def Ctx.absorbAligned (cfg : Config) (c : Ctx) (s : Bytes) : Ctx :=
  let r := Ctx.absorbBlocks cfg (s.length / 64) c s
  { r.1 with blk := patchBlock r.1.blk 0 r.2, num := BitVec.ofNat 6 r.2.length }

/-- `ABSORB(ctx, s)` (R138). -/
def Ctx.absorb (cfg : Config) (c : Ctx) (s : Bytes) : Ctx :=
  if 0 < c.num.toNat then
    if s.length < 64 - c.num.toNat then
      { c with blk := patchBlock c.blk c.num.toNat s, num := BitVec.ofNat 6 (c.num.toNat + s.length) }
    else
      let full := patchBlock c.blk c.num.toNat (s.take (64 - c.num.toNat))
      ({ c with blk := full }.absorbBlock cfg full.toList).absorbAligned cfg (s.drop (64 - c.num.toNat))
  else c.absorbAligned cfg s

/-- `HI` of the length field (R141). -/
def Ctx.lengthHi (c : Ctx) : Word := c.nblocks >>> 23

/-- `LO` of the length field (R141). -/
def Ctx.lengthLo (c : Ctx) : Word := (c.nblocks <<< 9) + (c.num.setWidth 32 <<< 3)

/-- The 8 bytes of the length field (R141). -/
def Ctx.lengthField (c : Ctx) : Bytes := be32 c.lengthHi ++ be32 c.lengthLo

/-- `PAD_AND_COMPRESS(ctx)` (R140): the chaining state after the one or two final blocks. -/
def Ctx.padAndCompress (c : Ctx) : Chaining :=
  let n := c.num.toNat
  let marked := patchBlock c.blk n [0x80#8]
  if n + 9 ≤ 64 then
    compress c.v (patchBlock (patchBlock marked (n + 1) (zeros (55 - n))) 56 c.lengthField).toList
  else
    let first := patchBlock marked (n + 1) (zeros (63 - n))
    compress (compress c.v first.toList) (patchBlock (patchBlock first 0 (zeros 56)) 56 c.lengthField).toList

/-- Serialization of the chaining state, 32 bytes (R142). -/
def serializeDigest (v : Chaining) : Bytes :=
  be32 v.a ++ be32 v.b ++ be32 v.c ++ be32 v.d ++ be32 v.e ++ be32 v.f ++ be32 v.g ++ be32 v.h

/-- The digest `FINAL(ctx)` returns (R143); the context it leaves is `Ctx.init`. -/
def Ctx.finalDigest (c : Ctx) : Bytes := serializeDigest c.padAndCompress

/-- The one-shot digest of a byte string, in a scratch context of its own (R148, spec/10_state.md R36). -/
def digestOf (cfg : Config) (s : Bytes) : Bytes := (Ctx.init.absorb cfg s).finalDigest

end Sys2Proof.Machine
end

