-- ==== Sys2Proof/Machine/DigestCommands.lean ====
section
/-!
DEFINITION. The commands of the digest primitive unit (spec/40_digest.md R145-R148), each over any configuration, and the
meanings `exec` calls, on the chip's.
-/

namespace Sys2Proof.Machine

/-- A slot select that names no slot is a RESERVED_FIELD fault (spec/30_encoding.md R95 item 2). The decoder already
refuses such a word; the check gives `exec` its meaning on every instruction. DEDUCED, safe, log 15. -/
def slotCheck (cfg : Config) (k : BitVec 4) : Bool × FaultCode := (!slotExists cfg k, .reservedField)

/-- DG_INIT over a configuration (R145): legal on a slot in either state. -/
def dgInit (cfg : Config) (k : BitVec 4) (s : State) : State :=
  s.guarded [slotCheck cfg k] fun s => (s.setSlot k Ctx.init).complete

/-- DG_ABSORB over a configuration (R146): ARG0 is the source address, ARG1 the length. -/
def dgAbsorb (cfg : Config) (k : BitVec 4) (s : State) : State :=
  s.guarded
    [ slotCheck cfg k,
      ((s.slot k).st == .uninit, .ctxUninit),
      (!inRange cfg s.arg0 s.arg1.toNat, .bufRange) ]
    fun s => (s.setSlot k ((s.slot k).absorb cfg (s.memRead s.arg0.toNat s.arg1.toNat))).complete

/-- DG_FINAL over a configuration (R147): ARG0 is the destination; the slot is READY and empty afterwards (R143). -/
def dgFinal (cfg : Config) (k : BitVec 4) (s : State) : State :=
  s.guarded
    [ slotCheck cfg k,
      ((s.slot k).st == .uninit, .ctxUninit),
      (!inRange cfg s.arg0 32, .bufRange) ]
    fun s => ((s.memWrite cfg s.arg0.toNat (s.slot k).finalDigest).setSlot k Ctx.init).complete

/-- DG_DIGEST over a configuration (R148): ARG0 source, ARG1 length, ARG2 destination; no slot changes. -/
def dgDigest (cfg : Config) (s : State) : State :=
  s.guarded
    [ (!inRange cfg s.arg0 s.arg1.toNat, .bufRange),
      (!inRange cfg s.arg2 32, .bufRange) ]
    fun s => (s.memWrite cfg s.arg2.toNat (digestOf cfg (s.memRead s.arg0.toNat s.arg1.toNat))).complete

/-- DG_INIT. -/
def execDgInit (k : BitVec 4) (s : State) : Host.Outcome State Fault Refusal := .next (dgInit Config.chip k s)

/-- DG_ABSORB. -/
def execDgAbsorb (k : BitVec 4) (s : State) : Host.Outcome State Fault Refusal := .next (dgAbsorb Config.chip k s)

/-- DG_FINAL. -/
def execDgFinal (k : BitVec 4) (s : State) : Host.Outcome State Fault Refusal := .next (dgFinal Config.chip k s)

/-- DG_DIGEST. -/
def execDgDigest (s : State) : Host.Outcome State Fault Refusal := .next (dgDigest Config.chip s)

end Sys2Proof.Machine
end

