-- ==== Sys2Proof/Machine/Flags.lean ====
section
/-!
DEFINITION. The flag-like words: STATUS as the host reads it (spec/10_state.md R23) and the verdict of TEST
(spec/43_harness.md R201).
-/

namespace Sys2Proof.Machine

/-- STATUS (R23): BUSY bit 0, FAULT bit 1, FOUND bit 2, MIDVALID bit 3 (a copy of `MIDREG.valid`, R27), FCODE bits
15:8; the reserved bits read as 0. -/
def State.statusWord (s : State) : Word :=
  0#16 ++ s.fcode ++ 0#4 ++ BitVec.ofBool s.midValid ++ BitVec.ofBool s.found ++ BitVec.ofBool s.fault
    ++ BitVec.ofBool s.busy

/-- `DIFF1` (spec/00_scope.md R10). -/
def diff1 : Word := 0x0000FFFF

/-- `CLASSIFY(m, tm)` as the word RESULT receives (R201): -1 INVALID, 0 NOT_FOUND, 1 FOUND. Comparisons are unsigned. -/
def classify (m tm : Word) : Word :=
  if diff1 < m then 0xFFFFFFFF else if tm < m then 0 else 1

end Sys2Proof.Machine
end

