-- ==== Sys2Proof/Machine/HarnessCommands.lean ====
section
/-!
DEFINITION. TEST, SEARCH and REGEN (spec/43_harness.md R202-R207), each over any configuration and composer, and the
meanings `exec` calls, on the chip's configuration.
-/

namespace Sys2Proof.Machine

/-- The midstate check and the work record's range check, the first of every harness command. -/
def recordChecks (cfg : Config) (s : State) (mid : Bool) : List (Bool × FaultCode) :=
  [(mid && !s.midValid, .midInvalid), (!inRange cfg s.arg0 112, .bufRange)]

/-- The selector check, the last of every harness command: on the header's own timestamp, before any write (R164). -/
def selectorCheck (cfg : Config) (s : State) (sel : Composer) : List (Bool × FaultCode) :=
  [(sel == .A && selBad cfg (timestampOf (s.headerAt cfg s.arg0)), .badSelector)]

/-- The checks of TEST and of SEARCH's start step (R202, R203): with the target's 32 bytes at ARG1. -/
def harnessChecks (cfg : Config) (s : State) (sel : Composer) (mid : Bool) : List (Bool × FaultCode) :=
  recordChecks cfg s mid ++ (!inRange cfg s.arg1 32, .bufRange) :: selectorCheck cfg s sel

/-- TEST over a configuration and composer (R202): the target word is read before the nonce (ARG2) is written. -/
def test (cfg : Config) (sel : Composer) (mid : Bool) (s : State) : State :=
  s.guarded (harnessChecks cfg s sel mid) fun s =>
    s.orFault ((s.setNonce cfg s.arg0 s.arg2).chain cfg sel mid s.arg0) fun r =>
      (((s.setNonce cfg s.arg0 s.arg2).setDigestSlot cfg s.arg0 r.1).setResult
        (classify (digestMsw cfg r.1) (s.targetMsw s.arg1))).complete

/-- The start step of SEARCH (R203): SRCH is loaded, BUSY stays, no BUF byte is written. -/
def searchStart (cfg : Config) (sel : Composer) (mid : Bool) (s : State) : State :=
  s.guarded (harnessChecks cfg s sel mid) fun s =>
    s.setSrch
      { n := s.arg2
        max := s.arg3
        tmsw := s.targetMsw s.arg1
        wr := s.arg0
        sel := sel
        mid := mid
        started := true }

/-- `FINISH(found, d)` (R206). -/
def State.finishSearch (s : State) (cfg : Config) (found : Bool) (d : Bytes) : State :=
  (s.setDigestSlot cfg s.srch.wr d).endSearch found

/-- The first effects of an attempt (R204): the nonce advances by 1 modulo 2^32 and is written into the header. -/
def State.nextNonce (s : State) (cfg : Config) : State :=
  (s.setSrch { s.srch with n := s.srch.n + 1 }).setNonce cfg s.srch.wr (s.srch.n + 1)

/-- After an attempt's digest (R204): stop FOUND, stop not found at the bound or on CANCEL (R205), or go on. -/
def State.afterAttempt (s : State) (cfg : Config) (d : Bytes) : State :=
  if digestMsw cfg d ≤ s.srch.tmsw then s.finishSearch cfg true d
  else if s.srch.max ≤ s.srch.n ∨ s.cancel = true then s.finishSearch cfg false d
  else s

/-- The attempt step of SEARCH (R204), on the values latched in SRCH. -/
def searchAttempt (cfg : Config) (s : State) : State :=
  s.orFault ((s.nextNonce cfg).chain cfg s.srch.sel s.srch.mid s.srch.wr) fun r =>
    (s.nextNonce cfg).afterAttempt cfg r.1

/-- One engine step of SEARCH (R203, R204): the start step, then one attempt a step while `SRCH.started` is 1. -/
def search (cfg : Config) (sel : Composer) (mid : Bool) (s : State) : State :=
  if s.srch.started then searchAttempt cfg s else searchStart cfg sel mid s

/-- REGEN over a configuration and composer (R207): the nonce is the one stored. -/
def regen (cfg : Config) (sel : Composer) (mid : Bool) (s : State) : State :=
  s.guarded (recordChecks cfg s mid ++ selectorCheck cfg s sel) fun s =>
    s.orFault (s.chain cfg sel mid s.arg0) fun r => ((s.setDigestSlot cfg s.arg0 r.1).setResult r.2).complete

/-- TEST.A. -/
def execTestA (s : State) : Host.Outcome State Fault Refusal := .next (test Config.chip .A false s)

/-- TEST.B. -/
def execTestB (s : State) : Host.Outcome State Fault Refusal := .next (test Config.chip .B false s)

/-- TEST.B.MID. -/
def execTestBMid (s : State) : Host.Outcome State Fault Refusal := .next (test Config.chip .B true s)

/-- SEARCH.A. -/
def execSearchA (s : State) : Host.Outcome State Fault Refusal := .next (search Config.chip .A false s)

/-- SEARCH.B. -/
def execSearchB (s : State) : Host.Outcome State Fault Refusal := .next (search Config.chip .B false s)

/-- SEARCH.B.MID. -/
def execSearchBMid (s : State) : Host.Outcome State Fault Refusal := .next (search Config.chip .B true s)

/-- REGEN.A. -/
def execRegenA (s : State) : Host.Outcome State Fault Refusal := .next (regen Config.chip .A false s)

/-- REGEN.B. -/
def execRegenB (s : State) : Host.Outcome State Fault Refusal := .next (regen Config.chip .B false s)

/-- REGEN.B.MID. -/
def execRegenBMid (s : State) : Host.Outcome State Fault Refusal := .next (regen Config.chip .B true s)

end Sys2Proof.Machine
end

