-- ==== Sys2Proof/Machine/Dispatch.lean ====
section
/-!
DEFINITION. One arm per command of the opcode map (spec/30_encoding.md R93): the engine step that performs it
(spec/20_memory.md R76).
-/

namespace Sys2Proof.Machine

/-- The engine step that performs a decoded command. -/
def exec (i : Instr) (s : State) : Host.Outcome State Fault Refusal :=
  match i with
  | .dgInit c => Sys2Proof.Machine.execDgInit c s
  | .dgAbsorb c => Sys2Proof.Machine.execDgAbsorb c s
  | .dgFinal c => Sys2Proof.Machine.execDgFinal c s
  | .dgDigest => Sys2Proof.Machine.execDgDigest s
  | .permRead => Sys2Proof.Machine.execPermRead s
  | .composeA => Sys2Proof.Machine.execComposeA s
  | .composeB => Sys2Proof.Machine.execComposeB s
  | .composeBMid => Sys2Proof.Machine.execComposeBMid s
  | .midstateB => Sys2Proof.Machine.execMidstateB s
  | .testA => Sys2Proof.Machine.execTestA s
  | .testB => Sys2Proof.Machine.execTestB s
  | .testBMid => Sys2Proof.Machine.execTestBMid s
  | .searchA => Sys2Proof.Machine.execSearchA s
  | .searchB => Sys2Proof.Machine.execSearchB s
  | .searchBMid => Sys2Proof.Machine.execSearchBMid s
  | .regenA => Sys2Proof.Machine.execRegenA s
  | .regenB => Sys2Proof.Machine.execRegenB s
  | .regenBMid => Sys2Proof.Machine.execRegenBMid s

end Sys2Proof.Machine
end

