-- ==== Sys2Proof/Machine/HostAccess.lean ====
section
/-!
DEFINITION. The host's atomic steps: register and BUF accesses (spec/10_state.md R21-R32, spec/20_memory.md R67, R68, R78),
host conflicts (spec/60_exceptions.md R221, R229, spec/70_reset_and_hazards.md R260), and reset (R250).
-/

namespace Sys2Proof.Machine

/-- The offset of BUF in the window (R21, R60). -/
abbrev bufOffset : Nat := 0x1000

/-- The end of the block's window (R32, R72). -/
abbrev windowEnd (cfg : Config) : Nat := bufOffset + cfg.bufSize

/-- The register at an aligned offset below 0x1000 (R21, R32). -/
def regAt (off : Nat) : Reg :=
  match off with
  | 0x000 => .cmd
  | 0x004 => .status
  | 0x008 => .arg 0
  | 0x00C => .arg 1
  | 0x010 => .arg 2
  | 0x014 => .arg 3
  | 0x018 => .result
  | 0x01C => .cancel
  | 0x020 => .id
  | 0x024 => .tlen
  | 0x028 => .bufsz
  | 0x02C => .nctxr
  | _ => .reserved

/-- What a host read of a register returns (R21-R32, R260 item 5). RESULT while BUSY = 1 is any value: a draw (R30, log 5).
TLEN is `TABLE_LENGTH`, which fits 32 bits in a well-formed configuration (log 17). -/
def State.registerValue (s : State) (cfg : Config) (r : Reg) : Word :=
  match r with
  | .cmd => 0
  | .status => s.statusWord
  | .arg i => s.arg i
  | .result => if s.busy then Config.freeWord s.draws else s.result
  | .cancel => (BitVec.ofBool s.cancel).setWidth 32
  | .id => 0x53474D31
  | .tlen => BitVec.ofNat 32 cfg.tableLength
  | .bufsz => BitVec.ofNat 32 cfg.bufSize
  | .nctxr => BitVec.ofNat 32 cfg.nctx
  | .reserved => 0

/-- What a host read of the BUF byte at `a` returns, on the low 8 bits of the bus word; while BUSY = 1, any value (R78 item 4,
log 5). -/
def State.bufByteValue (s : State) (a : Nat) : Word :=
  if s.busy then ((Config.freeWord s.draws).setWidth 8).setWidth 32 else (s.byteAt a).setWidth 32

/-- What a host read of the aligned BUF word at `a` returns: little-endian lanes (R67); while BUSY = 1, any value (R78
item 4, log 5). -/
def State.bufWordValue (s : State) (a : Nat) : Word :=
  if s.busy then Config.freeWord s.draws else readLE32 (s.memRead a 4) 0

/-- A host write of CMD (R22, R221): while BUSY, CMD_BUSY; while FAULT, ignored; else the command is issued. -/
def State.writeCmd (s : State) (w : Word) : State :=
  if s.busy then s.faultEntry .cmdBusy else if s.fault then s else s.issue w

/-- A host write that conflicts with a pending command (R229): while BUSY, HOST_CONFLICT, and the value is discarded. -/
def State.unlessBusy (s : State) (written : State) : State :=
  if s.busy then s.faultEntry .hostConflict else written

/-- A host write of a register (R21-R32, R260): only CMD, ARG and CANCEL take one. -/
def State.writeRegister (s : State) (r : Reg) (v : Word) : State :=
  match r with
  | .cmd => s.writeCmd v
  | .arg i => s.unlessBusy (s.setArg i v)
  | .cancel => s.setCancel v
  | .status => s
  | .result => s
  | .id => s
  | .tlen => s
  | .bufsz => s
  | .nctxr => s
  | .reserved => s

/-- An aligned word access. -/
def isAlignedWord (width : Width) (off : Nat) : Bool := width == .word && off % 4 == 0

/-- A host read at an offset in the window (R68). -/
def hostRead (cfg : Config) (width : Width) (off : Nat) (s : State) : Host.Outcome State Fault Refusal :=
  if windowEnd cfg ≤ off then .fault .outsideBlock
  else if off < bufOffset then
    if isAlignedWord width off then .next (s.observe (s.registerValue cfg (regAt off)))
    else .refused .hostAccessShape
  else if width = .byte then .next (s.observe (s.bufByteValue (off - bufOffset)))
  else if isAlignedWord width off then .next (s.observe (s.bufWordValue (off - bufOffset)))
  else .refused .hostAccessShape

/-- A host write at an offset in the window (R68). -/
def hostWrite (cfg : Config) (width : Width) (off : Nat) (v : Word) (s : State) : Host.Outcome State Fault Refusal :=
  if windowEnd cfg ≤ off then .fault .outsideBlock
  else if off < bufOffset then
    if isAlignedWord width off then .next (s.writeRegister (regAt off) v)
    else .refused .hostAccessShape
  else if width = .byte then .next (s.unlessBusy (s.memWrite cfg (off - bufOffset) [v.setWidth 8]))
  else if isAlignedWord width off then .next (s.unlessBusy (s.memWrite cfg (off - bufOffset) (le32 v)))
  else .refused .hostAccessShape

/-- A host access at a platform address: the block answers at the offset from `HC_BASE` (R72); an address below it is
outside the block (log 14). -/
def atAddress (cfg : Config) (addr : Nat) (access : Nat → Host.Outcome State Fault Refusal) :
    Host.Outcome State Fault Refusal :=
  if cfg.hcBase ≤ addr then access (addr - cfg.hcBase) else .fault .outsideBlock

/-- One host step (R75). -/
def hostStep (cfg : Config) (h : HostStep) (s : State) : Host.Outcome State Fault Refusal :=
  match h with
  | .read width addr => atAddress cfg addr fun off => hostRead cfg width off s
  | .write width addr v => atAddress cfg addr fun off => hostWrite cfg width off v s
  | .reset => .next s.hostReset

end Sys2Proof.Machine
end

