-- ==== Sys2Proof/Machine/Engine.lean ====
section
/-!
DEFINITION. The command engine's step (spec/20_memory.md R76) and whose turn comes next.
-/

namespace Sys2Proof.Machine

/-- The engine performs a pending word: a word the decoder refuses is taken as its fault (spec/30_encoding.md R96,
spec/60_exceptions.md R222), any other is performed. -/
def performWord (w : Word) (s : State) : Host.Outcome State Fault Refusal :=
  match decode w with
  | .error f => .next (s.faultEntry f)
  | .ok i => exec i s

/-- The engine's step (R76): enabled exactly when PEND is not none. An engine that is not enabled makes no step: the
state is unchanged (log 2). -/
def engineStep (s : State) : Host.Outcome State Fault Refusal :=
  match s.pend with
  | none => .next s
  | some w => performWord w s

/-- The next atomic step (R76): the first turn of the agenda, or the engine's when it is empty (log 1). -/
def takeTurn (s : State) : Host.Outcome State Fault Refusal :=
  match s.agenda with
  | [] => engineStep s
  | .engine :: _ => engineStep s.dropTurn
  | .host h :: _ => hostStep Config.chip h s.dropTurn

end Sys2Proof.Machine
end

