-- ==== Sys2Proof/Machine/Step.lean ====
section
/-!
DEFINITION. One step of the block and its host, and a command placed where the engine's next step performs it.
-/

namespace Sys2Proof.Machine

/-- One atomic step of the host or of the engine (spec/20_memory.md R75, R76). -/
def step (s : State) : Host.Outcome State Fault Refusal := takeTurn s

/-- `s` with the command word `w` pending and the engine's step next, no search under way: `step` performs exactly it.
A command is one 32-bit word (spec/30_encoding.md R92), so `nbits` adds nothing. Log 3. -/
def State.withFetchWord (s : State) (_nbits w : Nat) : State := s.latchCommand (BitVec.ofNat 32 w)

end Sys2Proof.Machine
end

