-- ==== Sys2Proof/Safety.lean ====
section
/-!
DEFINITION. What claims about runs use: the faulted state (spec/60_exceptions.md R225), and the invariant that every step keeps.
-/

namespace Sys2Proof

open Sys2Proof.Machine

/-- No fault was raised since reset. A claim about a run requires this at its end (R225: the faulted state is never
final). -/
def NoFault (s : State) : Prop := s.fault = false

/-- The command whose pending word runs the search held in SRCH (spec/43_harness.md R203). -/
def searchCommand : Composer → Bool → Instr
  | .A, _ => .searchA
  | .B, false => .searchB
  | .B, true => .searchBMid

/-- While SRCH is started, its SEARCH is the pending command, its work record is in range, and the midstate it uses is
valid (R76, R203). -/
def SearchPending (s : State) : Prop :=
  (∃ w, s.pend = some w ∧ decode w = .ok (searchCommand s.srch.sel s.srch.mid)) ∧
  inRange Config.chip s.srch.wr 112 = true ∧
  (s.srch.mid = true → s.midValid = true)

/-- The invariant of the block: BUF's list is canonical; BUSY = 1 exactly when PEND is not none (spec/10_state.md R39);
FCODE is 0 exactly while FAULT = 0, and a code of R220 (spec/10_state.md R23); a faulted block has nothing pending (R226); a
started search is the pending command; the context slots from NCTX on are as reset left them (spec/10_state.md R33, log 24). -/
structure Inv (s : State) : Prop where
  bufCanonical  : s.buf.wf Config.chip.bufSize
  busyPending   : s.busy = s.pend.isSome
  fcodeZero     : s.fcode = 0 ↔ s.fault = false
  fcodeListed   : s.fcode.toNat ≤ 9
  faultStops    : s.fault = true → s.pend = none
  searchStarted : s.srch.started = true → SearchPending s
  absentSlots   : ∀ k, slotExists Config.chip k = false → s.slot k = Ctx.atReset

end Sys2Proof
end

