-- ==== Sys2Proof/Certificates/Slice0/Obligations.lean ====
section
/-!
DEFINITION. The statements for the provers. Each docstring says which rule of the spec it formalises. Where a command
completes, the statement gives the next state `t` by what can be read of it, and ends with an equation `t = { s with … }`
that leaves every field not named in it as it was (the frame).
-/

open Sys2Proof Sys2Proof.Machine

/-! ### Encoding -/

/-- Bits `lo` to `lo + width - 1` of a command word, as a number (spec/30_encoding.md R90). -/
def Sys2Proof.bitsOf (w : Word) (lo width : Nat) : Nat := w.toNat / 2 ^ lo % 2 ^ width

/-- Words written out from the opcode map (R93), one per row. -/
def Obligations.OpcodeMapWordsDecode : Prop :=
  decode 0x01200000 = .ok (.dgInit 2) ∧ decode 0x02100000 = .ok (.dgAbsorb 1) ∧
  decode 0x03300000 = .ok (.dgFinal 3) ∧ decode 0x04000000 = .ok .dgDigest ∧
  decode 0x10000000 = .ok .permRead ∧ decode 0x11000000 = .ok .composeA ∧
  decode 0x11010000 = .ok .composeB ∧ decode 0x11018000 = .ok .composeBMid ∧
  decode 0x12010000 = .ok .midstateB ∧ decode 0x20000000 = .ok .testA ∧
  decode 0x20010000 = .ok .testB ∧ decode 0x20018000 = .ok .testBMid ∧
  decode 0x21000000 = .ok .searchA ∧ decode 0x21010000 = .ok .searchB ∧
  decode 0x21018000 = .ok .searchBMid ∧ decode 0x22000000 = .ok .regenA ∧
  decode 0x22010000 = .ok .regenB ∧ decode 0x22018000 = .ok .regenBMid

/-- R93, R96: decoding the word of a well-formed command gives it back, with every slot select. -/
def Obligations.DecodeOfEncodeGivesTheCommand : Prop :=
  ∀ i : Instr, i.WellFormed = true → decode (encode i) = .ok i

/-- R92: a word that decodes is the word of one well-formed command; no two words are one command. -/
def Obligations.EncodeOfDecodeGivesTheWord : Prop :=
  ∀ (w : Word) (i : Instr), decode w = .ok i → i.WellFormed = true ∧ encode i = w

/-- R94: exactly the operation codes outside the map are illegal; performing such a word raises ILLEGAL_OPCODE. -/
def Obligations.IllegalOpcodesAreExactlyThoseOutsideTheMap : Prop :=
  ∀ w : Word,
    (decode w = .error .illegalOpcode ↔
      bitsOf w 24 8 = 0 ∨ (0x05 ≤ bitsOf w 24 8 ∧ bitsOf w 24 8 ≤ 0x0F) ∨
      (0x13 ≤ bitsOf w 24 8 ∧ bitsOf w 24 8 ≤ 0x1F) ∨ 0x23 ≤ bitsOf w 24 8) ∧
    ∀ s : State, decode w = .error .illegalOpcode → performWord w s = .next (s.faultEntry .illegalOpcode)

/-- R95: a word with a legal operation code is refused with RESERVED_FIELD exactly under one of the seven conditions;
any other selects one row of the map. -/
def Obligations.ReservedFieldIsRaisedExactlyUnderTheSevenConditions : Prop :=
  ∀ w : Word, bitsOf w 24 8 ∈ [0x01, 0x02, 0x03, 0x04, 0x10, 0x11, 0x12, 0x20, 0x21, 0x22] →
    (decode w = .error .reservedField ↔
      bitsOf w 0 15 ≠ 0 ∨
      (bitsOf w 24 8 ∈ [0x01, 0x02, 0x03] ∧ 4 ≤ bitsOf w 20 4) ∨
      (bitsOf w 24 8 ∉ [0x01, 0x02, 0x03] ∧ bitsOf w 20 4 ≠ 0) ∨
      (bitsOf w 24 8 ∈ [0x01, 0x02, 0x03, 0x04, 0x10] ∧ bitsOf w 16 4 ≠ 0) ∨
      (bitsOf w 24 8 ∈ [0x11, 0x20, 0x21, 0x22] ∧ 1 < bitsOf w 16 4) ∨
      (bitsOf w 24 8 = 0x12 ∧ bitsOf w 16 4 ≠ 1) ∨
      (bitsOf w 15 1 = 1 ∧ ¬ (bitsOf w 24 8 ∈ [0x11, 0x20, 0x21, 0x22] ∧ bitsOf w 16 4 = 1))) ∧
    (decode w ≠ .error .reservedField → ∃! i : Instr, i.WellFormed = true ∧ encode i = w) ∧
    ∀ s : State, decode w = .error .reservedField → performWord w s = .next (s.faultEntry .reservedField)

/-! ### Steps -/

/-- R76: when the pending word decodes to a command and the engine's turn comes, `step` is `exec` of that command (on the
state with the turn taken off the agenda, when it stood there; log 1); when it does not decode, the step takes its fault
(R96, R223), in either case. -/
def Obligations.EngineStepPerformsThePendingWord : Prop :=
  ∀ (s : State) (w : Word), s.pend = some w →
    (∀ i, decode w = .ok i →
      (s.agenda = [] → step s = exec i s) ∧
      (∀ rest, s.agenda = .engine :: rest → step s = exec i { s with agenda := rest })) ∧
    (∀ f, decode w = .error f →
      (s.agenda = [] →
        step s = .next
          { s with
            fcode := if s.fault then s.fcode else faultNumber f
            fault := true
            pend := none
            srch := { s.srch with started := false }
            busy := false }) ∧
      (∀ rest, s.agenda = .engine :: rest →
        step s = .next
          { s with
            fcode := if s.fault then s.fcode else faultNumber f
            fault := true
            pend := none
            srch := { s.srch with started := false }
            busy := false
            agenda := rest }))

/-- R75, R76 with the model's choices of log 1 and log 2: with nothing pending the engine's turn changes nothing, and a host turn of
the agenda is one host step. -/
def Obligations.IdleEngineAndHostTurns : Prop :=
  (∀ s : State, s.pend = none →
    (s.agenda = [] → step s = .next s) ∧
    (∀ rest, s.agenda = .engine :: rest → step s = .next { s with agenda := rest })) ∧
  (∀ (s : State) (h : HostStep) (rest : List Turn), s.agenda = .host h :: rest →
    step s = hostStep Config.chip h { s with agenda := rest })

/-! ### Faults -/

/-- R223, with the codes of R220: fault entry. The abandoned command performs no further step: the engine, with nothing
pending, has none (R76, R225), which the model writes as a step that changes nothing (log 2). -/
def Obligations.FaultEntryStopsTheBlockAndChangesNothingElse : Prop :=
  (faultNumber .illegalOpcode = 0x01 ∧ faultNumber .reservedField = 0x02 ∧ faultNumber .ctxUninit = 0x03 ∧
    faultNumber .bufRange = 0x04 ∧ faultNumber .cmdBusy = 0x05 ∧ faultNumber .midInvalid = 0x06 ∧
    faultNumber .permIndex = 0x07 ∧ faultNumber .badSelector = 0x08 ∧ faultNumber .hostConflict = 0x09) ∧
  ∀ (s : State) (f : FaultCode),
    (s.fault = false → (s.faultEntry f).fcode = faultNumber f) ∧
    (s.fault = true → (s.faultEntry f).fcode = s.fcode) ∧
    s.faultEntry f = { s with
      fcode := (s.faultEntry f).fcode
      fault := true
      pend := none
      srch := { s.srch with started := false }
      busy := false } ∧
    engineStep (s.faultEntry f) = .next (s.faultEntry f)

/-- R224: a command that faults has made no write: its next state is the fault entry of the state before. -/
def Obligations.FaultingCommandWritesNothing : Prop :=
  ∀ (i : Instr) (s t : State), exec i s = .next t → s.fault = false → t.fault = true →
    ∃ f, t = s.faultEntry f

/-- R164, R224: over any configuration, a bad selector is raised before any write by every command that runs Composer A,
once its ranges are in range. The chip's table has none (log 11). -/
def Obligations.BadSelectorIsRaisedBeforeAnyWrite : Prop :=
  ∀ (cfg : Config) (s : State),
    (s.arg0.toNat + 80 ≤ cfg.bufSize → s.arg2.toNat + 32 ≤ cfg.bufSize → selBad cfg s.arg1 = true →
      composeA cfg s = s.faultEntry .badSelector) ∧
    (s.arg0.toNat + 112 ≤ cfg.bufSize → selBad cfg (timestampOf (s.headerAt cfg s.arg0)) = true →
      regen cfg .A false s = s.faultEntry .badSelector ∧
      (s.arg1.toNat + 32 ≤ cfg.bufSize →
        test cfg .A false s = s.faultEntry .badSelector ∧
        searchStart cfg .A false s = s.faultEntry .badSelector))

/-! ### The digest primitive -/

/-- R128: in round `j` the constant enters as its left rotation by `j` modulo 32, so rounds 32 to 63 rotate by `j - 32`. -/
def Obligations.RoundConstantRotationIsModulo32 : Prop :=
  (∀ (r : Chaining) (j : Nat),
    roundSS1 r j = rotl (rotl r.a 12 + r.e + rotl (roundConstant j) j) 7 ∧
    rotl (roundConstant j) j = (roundConstant j).rotateLeft (j % 32)) ∧
  (∀ j, 32 ≤ j → j ≤ 63 → rotl (roundConstant j) j = rotl (roundConstant j) (j - 32)) ∧
  rotl 0x7A879D8A 32 = 0x7A879D8A

/-- R150: the digests of the empty string and of "abc". -/
def Obligations.KnownAnswerDigests : Prop :=
  digestOf Config.chip [] =
    be32 0x1AB21D83 ++ be32 0x55CFA17F ++ be32 0x8E611948 ++ be32 0x31E81A8F ++
    be32 0x22BEC8C7 ++ be32 0x28FEFB74 ++ be32 0x7ED035EB ++ be32 0x5082AA2B ∧
  digestOf Config.chip [0x61, 0x62, 0x63] =
    be32 0x66C7F0F4 ++ be32 0x62EEEDD9 ++ be32 0xD1F2D46B ++ be32 0xDC10E4E2 ++
    be32 0x4167C487 ++ be32 0x5CF2F7A2 ++ be32 0x297DA02B ++ be32 0x8F4BA8E0

/-- The chaining state after compressing the first `q` blocks of a byte string, in order. -/
def Sys2Proof.foldBlocks (v : Chaining) (m : Bytes) (q : Nat) : Chaining :=
  (List.range q).foldl (fun v i => compress v (slice m (64 * i) 64)) v

/-- R138, R139, R35, R136: ABSORB compresses the buffered bytes and the new ones block by block, counts the blocks, and
buffers what is left; the rest of the slot is as it was. -/
def Obligations.AbsorbCompressesWholeBlocksAndBuffersTheRest : Prop :=
  ∀ (c : Ctx) (s m : Bytes), m = c.blk.toList.take c.num.toNat ++ s →
    (c.absorb Config.chip s).v = foldBlocks c.v m (m.length / 64) ∧
    (c.absorb Config.chip s).nblocks = c.nblocks + BitVec.ofNat 32 (m.length / 64) ∧
    (c.absorb Config.chip s).num.toNat = m.length % 64 ∧
    (c.absorb Config.chip s).blk.toList.take (m.length % 64) = m.drop (64 * (m.length / 64)) ∧
    (c.absorb Config.chip s).st = c.st

/-- R144 item 1: absorbing a message in pieces gives the digest of absorbing it at once. -/
def Obligations.DigestDoesNotDependOnTheSplit : Prop :=
  ∀ pieces : List Bytes, (pieces.foldl (Ctx.absorb Config.chip) Ctx.init).finalDigest = digestOf Config.chip pieces.flatten

/-- R140, R141, R142: FINAL compresses the buffered bytes, 0x80, zeros up to 8 bytes before the block's end, and the
length field; in one block for at most 55 buffered bytes, in two for 56 to 63. -/
def Obligations.FinalPadsToOneOrTwoBlocks : Prop :=
  ∀ (c : Ctx) (p : Bytes),
    p = c.blk.toList.take c.num.toNat ++ [0x80] ++ zeros ((119 - c.num.toNat) % 64) ++ c.lengthField →
    p.length = (if c.num.toNat ≤ 55 then 64 else 128) ∧
    c.finalDigest = serializeDigest (foldBlocks c.v p (p.length / 64))

/-- R141: the two halves of the length field are the message length in bits. -/
def Obligations.LengthFieldIsTheLengthInBits : Prop :=
  ∀ c : Ctx,
    c.lengthField = be32 c.lengthHi ++ be32 c.lengthLo ∧
    c.lengthHi.toNat * 2 ^ 32 + c.lengthLo.toNat = 512 * c.nblocks.toNat + 8 * c.num.toNat

/-- R120, R144: the digest of a message shorter than 2^38 bytes is the Merkle–Damgård iteration of COMPRESS from the IV over
the message, 0x80, zeros to 56 modulo 64, and the 64-bit big-endian length in bits. -/
def Obligations.DigestIsTheMerkleDamgardHash : Prop :=
  ∀ (msg p : Bytes), msg.length < 2 ^ 38 →
    p = msg ++ [0x80] ++ zeros ((119 - msg.length % 64) % 64) ++
      be32 (BitVec.ofNat 32 (8 * msg.length / 2 ^ 32)) ++ be32 (BitVec.ofNat 32 (8 * msg.length)) →
    p.length % 64 = 0 ∧ digestOf Config.chip msg = serializeDigest (foldBlocks digestIV p (p.length / 64))

/-! ### Digest commands -/

/-- R145: DG_INIT, from a slot in either state; every other slot and everything else is unchanged. -/
def Obligations.DgInitInitializesItsSlot : Prop :=
  ∀ (k : BitVec 4) (s : State),
    encode (.dgInit k) = 0x01000000 ||| (k.setWidth 32 <<< 20) ∧
    (slotExists Config.chip k = false → decode (encode (.dgInit k)) = .error .reservedField) ∧
    (slotExists Config.chip k = true →
      ∃ t, exec (.dgInit k) s = .next t ∧
        (t.slot k).st = .ready ∧ (t.slot k).v = digestIV ∧ (t.slot k).num = 0 ∧ (t.slot k).nblocks = 0 ∧
        (t.slot k).blk.toList = zeros 64 ∧
        (∀ j, j ≠ k → t.slot j = s.slot j) ∧
        t = { s with ctx := t.ctx, pend := none, busy := false })

/-- R146: DG_ABSORB: its two faults in order, and its effect on a READY slot with its range in range; an empty range
changes no slot. -/
def Obligations.DgAbsorbAbsorbsTheRange : Prop :=
  ∀ (k : BitVec 4) (s : State),
    encode (.dgAbsorb k) = 0x02000000 ||| (k.setWidth 32 <<< 20) ∧
    (slotExists Config.chip k = false → decode (encode (.dgAbsorb k)) = .error .reservedField) ∧
    (slotExists Config.chip k = true → (s.slot k).st = .uninit → exec (.dgAbsorb k) s = .next (s.faultEntry .ctxUninit)) ∧
    (slotExists Config.chip k = true → (s.slot k).st = .ready → 4096 < s.arg0.toNat + s.arg1.toNat →
      exec (.dgAbsorb k) s = .next (s.faultEntry .bufRange)) ∧
    (slotExists Config.chip k = true → (s.slot k).st = .ready → s.arg0.toNat + s.arg1.toNat ≤ 4096 →
      ∃ t, exec (.dgAbsorb k) s = .next t ∧
        t.slot k = (s.slot k).absorb Config.chip (s.memRead s.arg0.toNat s.arg1.toNat) ∧
        (s.arg1 = 0 → t.slot k = s.slot k) ∧
        (∀ j, j ≠ k → t.slot j = s.slot j) ∧
        t = { s with ctx := t.ctx, pend := none, busy := false })

/-- R147, R143: DG_FINAL: its two faults in order; otherwise it writes the digest at ARG0 and leaves the slot READY and empty,
and no other byte of BUF changes. -/
def Obligations.DgFinalWritesTheDigestAndResetsItsSlot : Prop :=
  ∀ (k : BitVec 4) (s : State),
    encode (.dgFinal k) = 0x03000000 ||| (k.setWidth 32 <<< 20) ∧
    (slotExists Config.chip k = false → decode (encode (.dgFinal k)) = .error .reservedField) ∧
    (slotExists Config.chip k = true → (s.slot k).st = .uninit → exec (.dgFinal k) s = .next (s.faultEntry .ctxUninit)) ∧
    (slotExists Config.chip k = true → (s.slot k).st = .ready → 4096 < s.arg0.toNat + 32 →
      exec (.dgFinal k) s = .next (s.faultEntry .bufRange)) ∧
    (slotExists Config.chip k = true → (s.slot k).st = .ready → s.arg0.toNat + 32 ≤ 4096 →
      ∃ t, exec (.dgFinal k) s = .next t ∧
        t.memRead s.arg0.toNat 32 = (s.slot k).finalDigest ∧
        (∀ x, x < s.arg0.toNat ∨ s.arg0.toNat + 32 ≤ x → t.byteAt x = s.byteAt x) ∧
        t.slot k = Ctx.init ∧ (∀ j, j ≠ k → t.slot j = s.slot j) ∧
        t = { s with buf := t.buf, ctx := t.ctx, pend := none, busy := false })

/-- R148, R36, R71: DG_DIGEST faults on either range; otherwise it writes the digest of the source as it was before the
command, and touches no slot. -/
def Obligations.DgDigestWritesTheDigestOfTheRange : Prop :=
  encode .dgDigest = 0x04000000 ∧
  ∀ s : State,
    (4096 < s.arg0.toNat + s.arg1.toNat ∨ 4096 < s.arg2.toNat + 32 →
      exec .dgDigest s = .next (s.faultEntry .bufRange)) ∧
    (s.arg0.toNat + s.arg1.toNat ≤ 4096 → s.arg2.toNat + 32 ≤ 4096 →
      ∃ t, exec .dgDigest s = .next t ∧
        t.memRead s.arg2.toNat 32 = digestOf Config.chip (s.memRead s.arg0.toNat s.arg1.toNat) ∧
        (∀ x, x < s.arg2.toNat ∨ s.arg2.toNat + 32 ≤ x → t.byteAt x = s.byteAt x) ∧
        t = { s with buf := t.buf, pend := none, busy := false }) ∧
    digestOf Config.chip (s.memRead s.arg0.toNat 0) =
      be32 0x1AB21D83 ++ be32 0x55CFA17F ++ be32 0x8E611948 ++ be32 0x31E81A8F ++
      be32 0x22BEC8C7 ++ be32 0x28FEFB74 ++ be32 0x7ED035EB ++ be32 0x5082AA2B

/-- The commands on context slot `k`. -/
def Sys2Proof.slotCommands (k : BitVec 4) : List Instr := [.dgInit k, .dgAbsorb k, .dgFinal k]

/-- The command on slot `k` reads the BUF byte at `x`, with ARG0 = `a` and ARG1 = `n`. -/
def Sys2Proof.slotReads (k : BitVec 4) (i : Instr) (a n : Word) (x : Nat) : Prop :=
  i = .dgAbsorb k ∧ a.toNat ≤ x ∧ x < a.toNat + n.toNat

/-- The command on slot `k` writes the BUF byte at `x`, with ARG0 = `a`. -/
def Sys2Proof.slotWrites (k : BitVec 4) (i : Instr) (a : Word) (x : Nat) : Prop :=
  i = .dgFinal k ∧ a.toNat ≤ x ∧ x < a.toNat + 32

/-- R261: commands on different slots, each with ARG registers of its own, may be exchanged when neither writes a byte the other
reads or writes: if one order completes so does the other, and they end in the same state, byte for byte of BUF, but for the
ARG registers, which hold the later command's. -/
def Obligations.SlotCommandsOnDifferentSlotsCommute : Prop :=
  ∀ (j k : BitVec 4) (i i' : Instr) (a n a' n' : Word) (s t u : State), j ≠ k →
    i ∈ slotCommands j → i' ∈ slotCommands k →
    (∀ x, slotWrites j i a x → ¬ slotReads k i' a' n' x ∧ ¬ slotWrites k i' a' x) →
    (∀ x, slotWrites k i' a' x → ¬ slotReads j i a n x) →
    exec i { s with arg0 := a, arg1 := n } = .next t →
    exec i' { t with arg0 := a', arg1 := n' } = .next u → u.fault = false →
    ∃ t' u', exec i' { s with arg0 := a', arg1 := n' } = .next t' ∧
      exec i { t' with arg0 := a, arg1 := n } = .next u' ∧
      (∀ x, u'.byteAt x = u.byteAt x) ∧
      u' = { u with buf := u'.buf, arg0 := a, arg1 := n }

/-! ### Composer A -/

/-- R163: over any configuration with a table, the index under each arithmetic, when the two agree, and the word fetched. The
selectors of a timestamp are the nibbles of that word, nibble 0 first (R161, R164). -/
def Obligations.PermutationIndexAndSelectors : Prop :=
  ∀ (cfg : Config) (t : Word), 1 ≤ cfg.tableLength →
    (cfg.indexArith = .u32wrap →
      permIndexOf cfg t =
        ((t.toNat + (2 ^ 32 - cfg.baseTimestamp.toNat)) % 2 ^ 32) % cfg.tableLength) ∧
    (cfg.indexArith = .math →
      (permIndexOf cfg t : Int) = ((t.toNat : Int) - cfg.baseTimestamp.toNat) % cfg.tableLength) ∧
    (cfg.baseTimestamp.toNat ≤ t.toNat ∨ cfg.tableLength ∣ 2 ^ 32 →
      permIndexOf { cfg with indexArith := .math } t = permIndexOf { cfg with indexArith := .u32wrap } t) ∧
    (∃ w, cfg.permTable[permIndexOf cfg t]? = some w ∧
      (selectors cfg t).map BitVec.toNat = (List.range 8).map (fun k => w.toNat / 16 ^ k % 16))

/-- R166, R164, R165: Composer A over any configuration: BAD_SELECTOR when some nibble of the selected word is 8 or more;
otherwise ten stages, two fixed and then one per nibble, nibble 0 first, and the digest and the index. -/
def Obligations.ComposerARunsTenStages : Prop :=
  ∀ (cfg : Config) (h : Bytes) (t w : Word), w = permWord cfg (permIndexOf cfg t) →
    ((∃ k, k < 8 ∧ 8 ≤ w.toNat / 16 ^ k % 16) → chainA cfg h t = .error .badSelector) ∧
    ((∀ k, k < 8 → w.toNat / 16 ^ k % 16 < 8) →
      ∃ x : Nat → Bytes64,
        x 0 = cfg.primA2 (cfg.primA1 h).toList ∧
        (∀ k, k < 8 → ∃ v : Fin 8, v.val = w.toNat / 16 ^ k % 16 ∧ x (k + 1) = cfg.primSel v (x k).toList) ∧
        chainA cfg h t = .ok ((x 8).toList.take 32, BitVec.ofNat 32 (permIndexOf cfg t)))

/-- R167 item 2: Composer A's index, and so its chain, is periodic in the timestamp, with its exact domain under each
arithmetic. -/
def Obligations.ComposerAIsPeriodicInTheTimestamp : Prop :=
  ∀ (cfg : Config) (h : Bytes) (t t' : Word), 1 ≤ cfg.tableLength →
    t'.toNat = t.toNat + cfg.tableLength →
    (cfg.indexArith = .u32wrap →
      cfg.baseTimestamp.toNat ≤ t.toNat ∨ t.toNat + cfg.tableLength < cfg.baseTimestamp.toNat ∨
        cfg.tableLength ∣ 2 ^ 32) →
    chainA cfg h t = chainA cfg h t'

/-- R168: PERM_READ; the index is not reduced. -/
def Obligations.PermReadReadsOneTableWord : Prop :=
  encode .permRead = 0x10000000 ∧
  ∀ s : State,
    (Config.chip.tableLength ≤ s.arg0.toNat → exec .permRead s = .next (s.faultEntry .permIndex)) ∧
    (∀ h : s.arg0.toNat < Config.chip.permTable.length,
      exec .permRead s = .next { s with result := Config.chip.permTable[s.arg0.toNat], pend := none, busy := false })

/-- R169: COMPOSE.A faults on either range; otherwise it takes its timestamp from ARG1, writes the digest at ARG2 and the index
to RESULT. On the chip's table no selector is bad (R164). -/
def Obligations.ComposeAWritesDigestAndIndex : Prop :=
  encode .composeA = 0x11000000 ∧
  ∀ s : State,
    (4096 < s.arg0.toNat + 80 ∨ 4096 < s.arg2.toNat + 32 → exec .composeA s = .next (s.faultEntry .bufRange)) ∧
    (s.arg0.toNat + 80 ≤ 4096 → s.arg2.toNat + 32 ≤ 4096 →
      ∃ t d, exec .composeA s = .next t ∧
        chainA Config.chip (normHeader Config.chip (s.memRead s.arg0.toNat 80)) s.arg1 = .ok (d, t.result) ∧
        t.memRead s.arg2.toNat 32 = d ∧
        (∀ x, x < s.arg2.toNat ∨ s.arg2.toNat + 32 ≤ x → t.byteAt x = s.byteAt x) ∧
        t = { s with buf := t.buf, result := t.result, pend := none, busy := false })

/-! ### Composer B -/

/-- R187, R181: COMPOSE.B faults on either range; otherwise it runs the four fixed stages, writes the digest at ARG2 and 0 to
RESULT, and does not look at MIDREG. -/
def Obligations.ComposeBWritesTheFourStageDigest : Prop :=
  encode .composeB = 0x11010000 ∧
  ∀ s : State,
    (4096 < s.arg0.toNat + 80 ∨ 4096 < s.arg2.toNat + 32 → exec .composeB s = .next (s.faultEntry .bufRange)) ∧
    (s.arg0.toNat + 80 ≤ 4096 → s.arg2.toNat + 32 ≤ 4096 →
      ∃ (t : State) (x1 x2 x3 x4 : Bytes64), exec .composeB s = .next t ∧
        x1 = Config.chip.primB1 (normHeader Config.chip (s.memRead s.arg0.toNat 80)) ∧
        x2 = Config.chip.primB2 x1.toList ∧ x3 = Config.chip.primB3 x2.toList ∧
        x4 = Config.chip.primB4 x3.toList ∧
        t.memRead s.arg2.toNat 32 = x4.toList.take 32 ∧
        (∀ x, x < s.arg2.toNat ∨ s.arg2.toNat + 32 ≤ x → t.byteAt x = s.byteAt x) ∧
        t = { s with buf := t.buf, result := 0, pend := none, busy := false })

/-- R188, R185: COMPOSE.B.MID faults with MIDREG invalid, then on either range; otherwise it resumes stage 1 from MIDREG.S with
the header's last four bytes. -/
def Obligations.ComposeBMidResumesFromTheMidstate : Prop :=
  encode .composeBMid = 0x11018000 ∧
  ∀ s : State,
    (s.midValid = false → exec .composeBMid s = .next (s.faultEntry .midInvalid)) ∧
    (s.midValid = true → 4096 < s.arg0.toNat + 80 ∨ 4096 < s.arg2.toNat + 32 →
      exec .composeBMid s = .next (s.faultEntry .bufRange)) ∧
    (s.midValid = true → s.arg0.toNat + 80 ≤ 4096 → s.arg2.toNat + 32 ≤ 4096 →
      ∃ (t : State) (x1 x2 x3 x4 : Bytes64), exec .composeBMid s = .next t ∧
        x1 = Config.chip.midResume s.midS ((normHeader Config.chip (s.memRead s.arg0.toNat 80)).drop 76) ∧
        x2 = Config.chip.primB2 x1.toList ∧ x3 = Config.chip.primB3 x2.toList ∧
        x4 = Config.chip.primB4 x3.toList ∧
        t.memRead s.arg2.toNat 32 = x4.toList.take 32 ∧
        (∀ x, x < s.arg2.toNat ∨ s.arg2.toNat + 32 ≤ x → t.byteAt x = s.byteAt x) ∧
        t = { s with buf := t.buf, result := 0, pend := none, busy := false })

/-- R186, R27: MIDSTATE.B faults unless all 80 bytes are in range; otherwise it absorbs the first 76 normalized header bytes into
MIDREG and makes it valid, so that STATUS.MIDVALID (bit 3) reads 1. Every other command leaves MIDREG as it was, and so does
every host step but reset, which clears `valid`. -/
def Obligations.MidstateHoldsTheAbsorbedPrefix : Prop :=
  encode .midstateB = 0x12010000 ∧
  (∀ s : State,
    (4096 < s.arg0.toNat + 80 → exec .midstateB s = .next (s.faultEntry .bufRange)) ∧
    (s.arg0.toNat + 80 ≤ 4096 →
      ∃ t, exec .midstateB s = .next t ∧
        t = { s with
          midS := Config.chip.midAbsorb ((normHeader Config.chip (s.memRead s.arg0.toNat 80)).take 76)
          midValid := true
          pend := none
          busy := false } ∧
        t.statusWord.getLsbD 3 = true)) ∧
  (∀ (i : Instr) (s t : State), i ≠ .midstateB → exec i s = .next t → t.midValid = s.midValid ∧ t.midS = s.midS) ∧
  ∀ (h : HostStep) (s t : State), hostStep Config.chip h s = .next t →
    if h = .reset then t.midValid = false else t.midValid = s.midValid ∧ t.midS = s.midS

/-- R185: Composer B resumed from a midstate; with a midstate computed from header `h0` it is Composer B over `h0`'s prefix
and the rest of `h`, and so, with equal prefixes, Composer B over `h`. -/
def Obligations.MidstateReplacesThePrefix : Prop :=
  ∀ (cfg : Config) (h0 h : Bytes) (m : Mid), cfg.WellFormed → h0.length = 80 → h.length = 80 →
    chainBMid cfg m h =
      (cfg.primB4 (cfg.primB3 (cfg.primB2 (cfg.midResume m (h.drop cfg.midPrefix)).toList).toList).toList).toList.take 32 ∧
    chainBMid cfg (cfg.midAbsorb (h0.take cfg.midPrefix)) h = chainB cfg (h0.take cfg.midPrefix ++ h.drop cfg.midPrefix) ∧
    (h0.take cfg.midPrefix = h.take cfg.midPrefix →
      chainBMid cfg (cfg.midAbsorb (h0.take cfg.midPrefix)) h = chainB cfg h)

/-- A state with SRCH.mid set to `b`. -/
def Sys2Proof.withMid (b : Bool) (s : State) : State := { s with srch := { s.srch with mid := b } }

/-- MIDREG holds the midstate of the header at `wr`: MIDSTATE.B was run on it since its first 76 bytes last changed. -/
def Sys2Proof.FreshMidstate (s : State) (wr : Word) : Prop :=
  s.midValid = true ∧ s.midS = Config.chip.midAbsorb ((normHeader Config.chip (s.memRead wr.toNat 80)).take 76)

/-- R184, R189: the midstate is advisory. With a fresh midstate of the header at ARG0, as MIDSTATE.B leaves it, COMPOSE, TEST and
REGEN with the midstate do exactly what they do without it (TEST changes the nonce only, which the midstate does not cover).
SEARCH does so step by step, but for the bit SRCH.mid itself: its start step, and each attempt over a record whose midstate is
fresh, which leaves it fresh. -/
def Obligations.MidstateChangesNoResult : Prop :=
  (∀ s t : State, s.arg0.toNat + 80 ≤ 4096 → exec .midstateB s = .next t → FreshMidstate t t.arg0) ∧
  (∀ s : State, FreshMidstate s s.arg0 →
    exec .composeBMid s = exec .composeB s ∧
    exec .testBMid s = exec .testB s ∧
    exec .regenBMid s = exec .regenB s ∧
    (s.srch.started = false →
      ∃ t u, exec .searchBMid s = .next t ∧ exec .searchB s = .next u ∧ withMid false t = withMid false u)) ∧
  ∀ s : State, s.srch.started = true → s.srch.sel = .B → s.srch.wr.toNat + 112 ≤ 4096 → FreshMidstate s s.srch.wr →
    ∃ t u, exec .searchBMid (withMid true s) = .next t ∧ exec .searchB (withMid false s) = .next u ∧
      withMid false t = u ∧ FreshMidstate t t.srch.wr

/-! ### The harness -/

/-- R195: normalization of an 80-byte image under each order, its own inverse. -/
def Obligations.NormalizationByByteOrder : Prop :=
  ∀ (cfg : Config) (img : Bytes), img.length = 80 →
    (cfg.hdrOrder = .wire → normHeader cfg img = img) ∧
    (cfg.hdrOrder = .wordLE → ∀ i b, i ≤ 19 → b ≤ 3 →
      (normHeader cfg img).getD (4 * i + b) 0 = img.getD (4 * i + 3 - b) 0) ∧
    (normHeader cfg img).length = 80 ∧ normHeader cfg (normHeader cfg img) = img

/-- R196: after SETNONCE the normalized header carries the nonce big-endian at offset 76, in each byte order the image holds it
as the rule says, and no other byte of BUF changes. -/
def Obligations.SetNonceWritesTheNonceField : Prop :=
  ∀ (cfg : Config) (s : State) (wr n : Word), wr.toNat + 80 ≤ cfg.bufSize →
    (cfg.hdrOrder = .wire → (s.setNonce cfg wr n).memRead (wr.toNat + 76) 4 = be32 n) ∧
    (cfg.hdrOrder = .wordLE → (s.setNonce cfg wr n).memRead (wr.toNat + 76) 4 = le32 n) ∧
    (normHeader cfg ((s.setNonce cfg wr n).memRead wr.toNat 80)).drop 76 = be32 n ∧
    (∀ x, x < wr.toNat + 76 ∨ wr.toNat + 80 ≤ x → (s.setNonce cfg wr n).byteAt x = s.byteAt x) ∧
    s.setNonce cfg wr n = { s with buf := (s.setNonce cfg wr n).buf }

/-- R201: the verdict word; the comparisons are unsigned. -/
def Obligations.VerdictOfATest : Prop :=
  ∀ m tm : Word,
    (0xFFFF < m.toNat → classify m tm = 0xFFFFFFFF) ∧
    (m.toNat ≤ 0xFFFF → tm.toNat < m.toNat → classify m tm = 0) ∧
    (m.toNat ≤ 0xFFFF → m.toNat ≤ tm.toNat → classify m tm = 1)

/-- What TEST of one form does: for the statement below. -/
def Sys2Proof.TestPerforms (i : Instr) (sel : Composer) (mid : Bool) : Prop :=
  ∀ s : State,
    (mid = true → s.midValid = false → exec i s = .next (s.faultEntry .midInvalid)) ∧
    ((mid = true → s.midValid = true) → 4096 < s.arg0.toNat + 112 ∨ 4096 < s.arg1.toNat + 32 →
      exec i s = .next (s.faultEntry .bufRange)) ∧
    ((mid = true → s.midValid = true) → s.arg0.toNat + 112 ≤ 4096 → s.arg1.toNat + 32 ≤ 4096 →
      ∃ t d j, exec i s = .next t ∧
        (s.setNonce Config.chip s.arg0 s.arg2).chain Config.chip sel mid s.arg0 = .ok (d, j) ∧
        t.memRead (s.arg0.toNat + 76) 4 = nonceBytes Config.chip s.arg2 ∧
        t.memRead (s.arg0.toNat + 80) 32 = d ∧
        (∀ x, x < s.arg0.toNat + 76 ∨ s.arg0.toNat + 112 ≤ x → t.byteAt x = s.byteAt x) ∧
        t = { s with
          buf := t.buf
          result := classify (digestMsw Config.chip d) (readBE32 (s.memRead s.arg1.toNat 4) 0)
          pend := none
          busy := false })

/-- R202, R199: TEST.A, TEST.B and TEST.B.MID: their faults in order; otherwise they write the nonce and the digest slot, and
RESULT is the verdict against the target as it was before the nonce was written. -/
def Obligations.TestWritesNonceDigestAndVerdict : Prop :=
  encode .testA = 0x20000000 ∧ encode .testB = 0x20010000 ∧ encode .testBMid = 0x20018000 ∧
  TestPerforms .testA .A false ∧ TestPerforms .testB .B false ∧ TestPerforms .testBMid .B true

/-- What REGEN of one form does: for the statement below. -/
def Sys2Proof.RegenPerforms (i : Instr) (sel : Composer) (mid : Bool) : Prop :=
  ∀ s : State,
    (mid = true → s.midValid = false → exec i s = .next (s.faultEntry .midInvalid)) ∧
    ((mid = true → s.midValid = true) → 4096 < s.arg0.toNat + 112 → exec i s = .next (s.faultEntry .bufRange)) ∧
    ((mid = true → s.midValid = true) → s.arg0.toNat + 112 ≤ 4096 →
      ∃ t d j, exec i s = .next t ∧
        s.chain Config.chip sel mid s.arg0 = .ok (d, j) ∧
        (sel = .A → j = BitVec.ofNat 32 (permIndexOf Config.chip
          (timestampOf (normHeader Config.chip (s.memRead s.arg0.toNat 80))))) ∧
        (sel = .B → j = 0) ∧
        t.memRead (s.arg0.toNat + 80) 32 = d ∧
        (∀ x, x < s.arg0.toNat + 80 ∨ s.arg0.toNat + 112 ≤ x → t.byteAt x = s.byteAt x) ∧
        t = { s with buf := t.buf, result := j, pend := none, busy := false })

/-- R207: REGEN.A, REGEN.B and REGEN.B.MID: their faults in order; otherwise they write the digest slot, with the stored nonce, and
RESULT is the index, or 0. -/
def Obligations.RegenWritesTheDigestSlot : Prop :=
  encode .regenA = 0x22000000 ∧ encode .regenB = 0x22010000 ∧ encode .regenBMid = 0x22018000 ∧
  RegenPerforms .regenA .A false ∧ RegenPerforms .regenB .B false ∧ RegenPerforms .regenBMid .B true

/-- R264: after TEST, REGEN of the same form recomputes the tested nonce's digest: no byte of BUF changes. -/
def Obligations.RegenAfterTestChangesNoByte : Prop :=
  ∀ (p : Instr × Instr) (s t u : State),
    p ∈ [(.testA, .regenA), (.testB, .regenB), (.testBMid, .regenBMid)] →
    exec p.1 s = .next t → t.fault = false → exec p.2 t = .next u →
    (∀ x, u.byteAt x = t.byteAt x) ∧ u.fault = false

/-- R208 item 4: for one work record, target and nonce, TEST's verdict is 1 exactly when the digest's most-significant word is at
most the target's and at most DIFF1; and the attempt of a SEARCH over the same record, target and nonce, in the same form,
writes the same bytes as TEST where it ends, and ends FOUND exactly when that word is at most the target's. -/
def Obligations.TestAgreesWithTheSearchAttempt : Prop :=
  ∀ (p : Instr × Instr × Composer × Bool) (s t u : State) (max : Word),
    p ∈ [(.testA, .searchA, .A, false), (.testB, .searchB, .B, false), (.testBMid, .searchBMid, .B, true)] →
    exec p.1 s = .next t → t.fault = false →
    exec p.2.1
      { s with srch :=
        { n := s.arg2 - 1
          max := max
          tmsw := readBE32 (s.memRead s.arg1.toNat 4) 0
          wr := s.arg0
          sel := p.2.2.1
          mid := p.2.2.2
          started := true } } = .next u →
    (t.result = 1 ↔
      (digestMsw Config.chip (t.memRead (s.arg0.toNat + 80) 32)).toNat ≤
        min (readBE32 (s.memRead s.arg1.toNat 4) 0).toNat 0xFFFF) ∧
    (u.srch.started = false → u.buf = t.buf ∧ u.result = s.arg2) ∧
    ((digestMsw Config.chip (t.memRead (s.arg0.toNat + 80) 32)).toNat ≤
        (readBE32 (s.memRead s.arg1.toNat 4) 0).toNat ↔
      u.srch.started = false ∧ u.found = true ∧ u.pend = none)

/-- What the start step of SEARCH of one form does: for the statement below. -/
def Sys2Proof.SearchStarts (i : Instr) (sel : Composer) (mid : Bool) : Prop :=
  ∀ s : State,
    (s.srch.started = false →
      (mid = true → s.midValid = false → exec i s = .next (s.faultEntry .midInvalid)) ∧
      ((mid = true → s.midValid = true) → 4096 < s.arg0.toNat + 112 ∨ 4096 < s.arg1.toNat + 32 →
        exec i s = .next (s.faultEntry .bufRange)) ∧
      ((mid = true → s.midValid = true) → s.arg0.toNat + 112 ≤ 4096 → s.arg1.toNat + 32 ≤ 4096 →
        exec i s = .next
          { s with srch :=
            { n := s.arg2
              max := s.arg3
              tmsw := readBE32 (s.memRead s.arg1.toNat 4) 0
              wr := s.arg0
              sel := sel
              mid := mid
              started := true } })) ∧
    (s.srch.started = true → ∃ t, exec i s = .next t ∧ t.fault = s.fault ∧ t.fcode = s.fcode)

/-- R203: the start step of SEARCH.A, SEARCH.B and SEARCH.B.MID: its faults in order; otherwise it loads SRCH and writes nothing
else. No attempt step faults. -/
def Obligations.SearchStartLoadsTheSearchRegisters : Prop :=
  encode .searchA = 0x21000000 ∧ encode .searchB = 0x21010000 ∧ encode .searchBMid = 0x21018000 ∧
  SearchStarts .searchA .A false ∧ SearchStarts .searchB .B false ∧ SearchStarts .searchBMid .B true

/-- R204, R205, R206: the attempt step of a search under way. The nonce advances and is written; a digest whose most-significant
word is at most the target's ends the search FOUND; else the bound or CANCEL ends it not found; else the search goes on. -/
def Obligations.SearchAttemptTriesOneNonce : Prop :=
  ∀ (i : Instr) (s u : State), i ∈ [.searchA, .searchB, .searchBMid] → s.srch.started = true →
    s.srch.wr.toNat + 112 ≤ 4096 →
    u = ({ s with srch := { s.srch with n := s.srch.n + 1 } }).setNonce Config.chip s.srch.wr (s.srch.n + 1) →
    ∃ d j, u.chain Config.chip s.srch.sel s.srch.mid s.srch.wr = .ok (d, j) ∧
      exec i s = .next
        (if (digestMsw Config.chip d).toNat ≤ s.srch.tmsw.toNat then
          { u with
            buf := u.buf.putBytes 4096 (s.srch.wr.toNat + 80) d, result := s.srch.n + 1, found := true
            srch := { u.srch with started := false }, pend := none, busy := false }
        else if s.srch.max.toNat ≤ (s.srch.n + 1).toNat ∨ s.cancel = true then
          { u with
            buf := u.buf.putBytes 4096 (s.srch.wr.toNat + 80) d, result := s.srch.n + 1, found := false
            srch := { u.srch with started := false }, pend := none, busy := false }
        else u)

/-- R206: when an attempt ends the search, RESULT is the last nonce, the header holds it and the digest slot its digest, and
no byte outside the nonce field and the digest slot changed. -/
def Obligations.FinishedSearchLeavesNonceAndDigest : Prop :=
  ∀ (i : Instr) (s t : State), i ∈ [.searchA, .searchB, .searchBMid] → s.srch.started = true →
    s.srch.wr.toNat + 112 ≤ 4096 → exec i s = .next t → t.srch.started = false →
    t.result = s.srch.n + 1 ∧ t.pend = none ∧ t.busy = false ∧
    t.memRead (s.srch.wr.toNat + 76) 4 = nonceBytes Config.chip (s.srch.n + 1) ∧
    (∃ d j, t.chain Config.chip s.srch.sel s.srch.mid s.srch.wr = .ok (d, j) ∧
      t.memRead (s.srch.wr.toNat + 80) 32 = d ∧
      (t.found = true ↔ (digestMsw Config.chip d).toNat ≤ s.srch.tmsw.toNat)) ∧
    (∀ x, x < s.srch.wr.toNat + 76 ∨ s.srch.wr.toNat + 112 ≤ x → t.byteAt x = s.byteAt x)

/-- R208 items 2 and 3, R205, R263: an attempt against the largest target word ends the search FOUND; an attempt with
CANCEL set ends it; either way RESULT is the attempt's nonce. -/
def Obligations.PassingTargetOrCancelEndsTheSearch : Prop :=
  ∀ (i : Instr) (s : State), i ∈ [.searchA, .searchB, .searchBMid] → s.srch.started = true →
    (s.srch.tmsw = 0xFFFFFFFF →
      ∃ t, exec i s = .next t ∧ t.found = true ∧ t.result = s.srch.n + 1 ∧ t.pend = none ∧ t.busy = false ∧
        t.srch.started = false) ∧
    (s.cancel = true →
      ∃ t, exec i s = .next t ∧ t.result = s.srch.n + 1 ∧ t.pend = none ∧ t.busy = false ∧
        t.srch.started = false ∧ t.cancel = true)

/-- R208 items 1 and 2, R268 item 2: a search under way, with nothing on the agenda and its bound ahead, completes within
`max - n` attempts, with RESULT a nonce in (n, max]; without a pass or a cancel RESULT is the bound. The run is the model's: with
an empty agenda each step is the engine's (log 1), and the steps after completion change nothing (log 2). -/
def Obligations.SearchTerminatesAtItsBound : Prop :=
  ∀ s : State, Inv s → s.srch.started = true → s.agenda = [] → s.srch.n.toNat < s.srch.max.toNat →
    ∃ t, Sys2Proof.core.run (s.srch.max.toNat - s.srch.n.toNat) s = .next t ∧
      t.pend = none ∧ t.busy = false ∧ t.srch.started = false ∧ t.fault = s.fault ∧
      s.srch.n.toNat < t.result.toNat ∧ t.result.toNat ≤ s.srch.max.toNat ∧
      (t.found = false → s.cancel = false → t.result = s.srch.max)

/-! ### BUF -/

/-- R62, R61: `InRange` is computed without wrap; an empty range is in range up to BUF_SIZE itself, 4096 on the chip. -/
def Obligations.RangesAreCheckedWithoutWrap : Prop :=
  (∀ (cfg : Config) (a : Word) (n : Nat),
    (inRange cfg a n = true ↔ a.toNat + n ≤ cfg.bufSize) ∧ (inRange cfg a 0 = true ↔ a.toNat ≤ cfg.bufSize)) ∧
  Config.chip.bufSize = 4096

/-- R64, R65: what MemRead returns, and that MemWrite sets its bytes and changes no other byte. -/
def Obligations.MemWriteSetsItsBytesOnly : Prop :=
  ∀ (cfg : Config) (s : State) (a n : Nat) (bs : Bytes), a + n ≤ cfg.bufSize → bs.length = n →
    (s.memRead a n).length = n ∧
    (∀ i, i < n → (s.memRead a n).getD i 0 = s.byteAt (a + i)) ∧
    (∀ i, i < n → (s.memWrite cfg a bs).byteAt (a + i) = bs.getD i 0) ∧
    (∀ x, x < a ∨ a + n ≤ x → (s.memWrite cfg a bs).byteAt x = s.byteAt x) ∧
    (s.memWrite cfg a bs).memRead a n = bs

/-! ### The host -/

/-- R22, R221: a host write of CMD issues the word when the block is idle and not faulted, raises CMD_BUSY while BUSY = 1, and is
ignored in the faulted state; a host read of CMD returns 0. -/
def Obligations.CmdWriteIssuesFaultsOrIsIgnored : Prop :=
  ∀ (s : State) (w : Word) (rest : List Turn),
    (s.agenda = .host (.write .word (Config.chip.hcBase + 0x000) w) :: rest →
      (s.busy = false → s.fault = false →
        step s = .next { s with pend := some w, busy := true, agenda := rest }) ∧
      (s.busy = true → s.fault = false → step s = .next (({ s with agenda := rest }).faultEntry .cmdBusy)) ∧
      (s.busy = false → s.fault = true → step s = .next { s with agenda := rest })) ∧
    (s.agenda = .host (.read .word (Config.chip.hcBase + 0x000)) :: rest →
      step s = .next (({ s with agenda := rest }).observe 0))

/-- R229: a host write of an ARG register or of BUF, byte or aligned word, raises HOST_CONFLICT while BUSY = 1. Otherwise the ARG
register takes the word (R29), or the BUF byte the low 8 bits of the bus word, which is the model's choice of log 22, and nothing
else changes. A write of CANCEL is permitted at any time and keeps bit 0 (R31), and no read is a conflict. -/
def Obligations.ArgAndBufWritesConflictWhileBusy : Prop :=
  ∀ (s : State) (v : Word),
    (∀ i : Fin 4,
      (s.busy = true → hostWrite Config.chip .word (0x008 + 4 * i.val) v s = .next (s.faultEntry .hostConflict)) ∧
      (s.busy = false → ∃ t, hostWrite Config.chip .word (0x008 + 4 * i.val) v s = .next t ∧
        (∀ j, t.arg j = if j = i then v else s.arg j) ∧
        t = { s with arg0 := t.arg0, arg1 := t.arg1, arg2 := t.arg2, arg3 := t.arg3 })) ∧
    (∀ a, a < 4096 →
      (s.busy = true → hostWrite Config.chip .byte (0x1000 + a) v s = .next (s.faultEntry .hostConflict)) ∧
      (s.busy = true → a % 4 = 0 → hostWrite Config.chip .word (0x1000 + a) v s = .next (s.faultEntry .hostConflict)) ∧
      (s.busy = false → ∃ t, hostWrite Config.chip .byte (0x1000 + a) v s = .next t ∧
        (∀ x, t.byteAt x = if x = a then v.setWidth 8 else s.byteAt x) ∧ t = { s with buf := t.buf })) ∧
    hostWrite Config.chip .word 0x01C v s = .next { s with cancel := v.getLsbD 0 } ∧
    (∀ width off t, hostRead Config.chip width off s = .next t →
      t.fault = s.fault ∧ t.fcode = s.fcode ∧ t.pend = s.pend ∧ t.busy = s.busy)

/-- R67: an aligned host word access to BUF moves four bytes in little-endian lanes. -/
def Obligations.BufWordAccessesAreLittleEndian : Prop :=
  ∀ (s : State) (a : Nat) (v : Word), s.busy = false → a % 4 = 0 → a < 4096 →
    (∃ t, hostWrite Config.chip .word (0x1000 + a) v s = .next t ∧ t.memRead a 4 = le32 v ∧
      (∀ x, x < a ∨ a + 4 ≤ x → t.byteAt x = s.byteAt x) ∧ t = { s with buf := t.buf }) ∧
    (∃ t, hostRead Config.chip .word (0x1000 + a) s = .next t ∧
      t.observed = readLE32 (s.memRead a 4) 0 :: s.observed) ∧
    (∃ t u, hostWrite Config.chip .word (0x1000 + a) v s = .next t ∧ hostRead Config.chip .word (0x1000 + a) t = .next u ∧
      u.observed = v :: s.observed)

/-- R72, R68, R32 with log 14: the block answers at offsets from HC_BASE, a multiple of 0x1000. Inside its window an access is
refused exactly when it is neither an aligned word nor, in BUF, a byte; an access outside the window, below or above it, is a
fault of the model. -/
def Obligations.HostAccessShapes : Prop :=
  Config.chip.hcBase % 0x1000 = 0 ∧
  ∀ (s : State) (width : Width) (off : Nat) (v : Word),
    (hostStep Config.chip (.read width (Config.chip.hcBase + off)) s = hostRead Config.chip width off s ∧
      hostStep Config.chip (.write width (Config.chip.hcBase + off) v) s = hostWrite Config.chip width off v s) ∧
    (off < Config.chip.hcBase →
      hostStep Config.chip (.read width off) s = .fault .outsideBlock ∧
      hostStep Config.chip (.write width off v) s = .fault .outsideBlock) ∧
    (0x1000 + 4096 ≤ off →
      hostRead Config.chip width off s = .fault .outsideBlock ∧
      hostWrite Config.chip width off v s = .fault .outsideBlock) ∧
    (off < 0x1000 + 4096 →
      (hostRead Config.chip width off s = .refused .hostAccessShape ↔
        ¬ ((width = .word ∧ off % 4 = 0) ∨ (width = .byte ∧ 0x1000 ≤ off))) ∧
      (hostWrite Config.chip width off v s = .refused .hostAccessShape ↔
        ¬ ((width = .word ∧ off % 4 = 0) ∨ (width = .byte ∧ 0x1000 ≤ off))))

/-- R70, R30, R78 item 4: a host read changes nothing of the block: its next state differs only in the host's record and in the
draw counter (the model's own fields, log 4 and log 5). -/
def Obligations.HostReadsHaveNoSideEffect : Prop :=
  ∀ (s t : State) (width : Width) (off : Nat), hostRead Config.chip width off s = .next t →
    t = { s with observed := t.observed, draws := t.draws } ∧ t.observed.tail = s.observed

/-- R78 item 4, R30, R259, with the model's draws (log 5): while BUSY = 1, a host read of RESULT or of BUF returns the next draw,
a value nothing is known of, and the read after it a fresh one; with BUSY = 0 a read of a BUF byte returns that byte. -/
def Obligations.ReadsWhileBusyAreDraws : Prop :=
  ∀ (s : State) (a : Nat), a < 4096 →
    (s.busy = true →
      hostRead Config.chip .word 0x018 s = .next (s.observe (Config.freeWord s.draws)) ∧
      hostRead Config.chip .byte (0x1000 + a) s =
        .next (s.observe (((Config.freeWord s.draws).setWidth 8).setWidth 32)) ∧
      (a % 4 = 0 → ∃ t u, hostRead Config.chip .word (0x1000 + a) s = .next t ∧
        hostRead Config.chip .word (0x1000 + a) t = .next u ∧
        u.observed = Config.freeWord (s.draws + 1) :: Config.freeWord s.draws :: s.observed)) ∧
    (s.busy = false → hostRead Config.chip .byte (0x1000 + a) s = .next (s.observe ((s.byteAt a).setWidth 32)))

/-- R23, R21, R32, R260 items 4 and 5: what the registers read as; STATUS by its fields; TLEN is the table's length; reserved
offsets read 0. A host write to a read-only register or a reserved offset is ignored, whether or not BUSY = 1. -/
def Obligations.RegistersReadAsTheirRulesSay : Prop :=
  ∀ s : State,
    (∃ t, hostRead Config.chip .word 0x004 s = .next t ∧ t.observed = s.statusWord :: s.observed) ∧
    s.statusWord.toNat =
      s.busy.toNat + 2 * s.fault.toNat + 4 * s.found.toNat + 8 * s.midValid.toNat + 256 * s.fcode.toNat ∧
    (∀ i : Fin 4, ∃ t, hostRead Config.chip .word (0x008 + 4 * i.val) s = .next t ∧
      t.observed = s.arg i :: s.observed) ∧
    (s.busy = false → ∃ t, hostRead Config.chip .word 0x018 s = .next t ∧ t.observed = s.result :: s.observed) ∧
    (∃ t, hostRead Config.chip .word 0x01C s = .next t ∧
      t.observed = BitVec.ofNat 32 s.cancel.toNat :: s.observed) ∧
    (∃ t, hostRead Config.chip .word 0x020 s = .next t ∧ t.observed = 0x53474D31 :: s.observed) ∧
    (∃ t, hostRead Config.chip .word 0x028 s = .next t ∧ t.observed = 0x1000 :: s.observed) ∧
    (∃ t, hostRead Config.chip .word 0x02C s = .next t ∧ t.observed = 4 :: s.observed) ∧
    (∃ t, hostRead Config.chip .word 0x024 s = .next t ∧
      t.observed = BitVec.ofNat 32 Config.chip.tableLength :: s.observed) ∧
    (∀ v, ∀ off ∈ [0x004, 0x018, 0x020, 0x024, 0x028, 0x02C], hostWrite Config.chip .word off v s = .next s) ∧
    (∀ off v, 0x030 ≤ off → off < 0x1000 → off % 4 = 0 →
      (∃ t, hostRead Config.chip .word off s = .next t ∧ t.observed = 0 :: s.observed) ∧
      hostWrite Config.chip .word off v s = .next s)

/-! ### Reset -/

/-- R47: the values the spec gives for reset. No byte of BUF has been written. -/
def Obligations.ResetLeavesTheStatedValues : Prop :=
  State.reset.statusWord = 0 ∧ State.reset.arg0 = 0 ∧ State.reset.arg1 = 0 ∧ State.reset.arg2 = 0 ∧
  State.reset.arg3 = 0 ∧ State.reset.result = 0 ∧ State.reset.cancel = false ∧
  (∀ k, (State.reset.slot k).st = .uninit) ∧ State.reset.midValid = false ∧
  State.reset.srch.started = false ∧ State.reset.pend = none ∧
  State.reset.registerValue Config.chip .id = 0x53474D31 ∧
  State.reset.registerValue Config.chip .tlen = BitVec.ofNat 32 Config.chip.tableLength ∧
  State.reset.registerValue Config.chip .bufsz = 4096 ∧ State.reset.registerValue Config.chip .nctxr = 4 ∧
  ∀ x, State.reset.buf.cell? x = none

/-- R250: a host reset, from any state, pending or faulted, gives the reset values in one step, with every BUF byte unwritten; the
host's agenda and record, which are the model's own, stay (log 6). -/
def Obligations.HostResetReachesTheResetState : Prop :=
  ∀ (s : State) (rest : List Turn), s.agenda = .host .reset :: rest →
    ∃ t, step s = .next t ∧
      t = { State.reset with epoch := t.epoch, draws := t.draws, agenda := rest, observed := s.observed } ∧
      (∀ x, t.buf.cell? x = none)

/-! ### Rules over the whole machine -/

/-- R25, R28, R225, R226: only reset clears FAULT, and FCODE keeps the first code: every other step from a faulted state keeps
both. And after a fault the block is stopped: such a step leaves every context, MIDREG, RESULT and FOUND as they were and
nothing pending. `Inv` rules out a faulted state with a command pending, which no run reaches. -/
def Obligations.OnlyResetLeavesTheFaultedState : Prop :=
  ∀ s t : State, step s = .next t → s.fault = true → (∀ rest, s.agenda ≠ .host .reset :: rest) →
    (t.fault = true ∧ t.fcode = s.fcode) ∧
    (Inv s →
      t.ctx = s.ctx ∧ t.midValid = s.midValid ∧ t.midS = s.midS ∧ t.result = s.result ∧ t.found = s.found ∧
      t.pend = none ∧ t.busy = false)

/-- R29, R31, R26, R30, R77, R268 item 1: which registers no command writes: the ARG registers and CANCEL none, FOUND only SEARCH,
a context slot only the digest-slot commands, RESULT no digest command and not MIDSTATE; and every command but SEARCH leaves
nothing pending. -/
def Obligations.CommandsWriteOnlyTheirRegisters : Prop :=
  ∀ (i : Instr) (s t : State), exec i s = .next t →
    (t.arg0 = s.arg0 ∧ t.arg1 = s.arg1 ∧ t.arg2 = s.arg2 ∧ t.arg3 = s.arg3 ∧ t.cancel = s.cancel ∧
      t.agenda = s.agenda ∧ t.observed = s.observed ∧ t.epoch = s.epoch ∧ t.draws = s.draws) ∧
    (i ∉ [.searchA, .searchB, .searchBMid] → t.found = s.found ∧ t.pend = none ∧ t.busy = false) ∧
    ((∀ k, i ≠ .dgInit k ∧ i ≠ .dgAbsorb k ∧ i ≠ .dgFinal k) → t.ctx = s.ctx) ∧
    ((∃ k, i = .dgInit k ∨ i = .dgAbsorb k ∨ i = .dgFinal k) ∨ i = .dgDigest ∨ i = .midstateB →
      t.result = s.result)

/-- The commands that never store: every byte of BUF reads as before (R145, R146, R168, R186, R203). A SEARCH is one until it is
under way. -/
def Obligations.NonStoringCommandsLeaveBufAlone : Prop :=
  ∀ (i : Instr) (s t : State), exec i s = .next t →
    ((∃ k, i = .dgInit k ∨ i = .dgAbsorb k) ∨ i = .permRead ∨ i = .midstateB ∨
      (i ∈ [.searchA, .searchB, .searchBMid] ∧ s.srch.started = false)) →
    ∀ x, t.byteAt x = s.byteAt x

/-- R39, R23, R226, R76: the reset state meets the invariant. -/
def Obligations.ResetMeetsTheInvariant : Prop := Inv State.reset

/-- R39, R23, R27, R226, R76: every step, of the host or of the engine, from any state that meets the invariant gives one that
meets it. -/
def Obligations.EveryStepKeepsTheInvariant : Prop :=
  ∀ s t : State, Inv s → step s = .next t → Inv t
end

