-- ==== Sys2Proof/Laws/State.lean ====
section
/-!
SUPPORT. What each update of the state does to each field, one lemma per field per update, true by `rfl`.
-/

namespace Sys2Proof.Machine.State

variable (s : State)

/-! ### `memWrite` -/

@[simp] theorem memWrite_busy (cfg : Config) (a : Nat) (bs : Bytes) : (s.memWrite cfg a bs).busy = s.busy := rfl
@[simp] theorem memWrite_fault (cfg : Config) (a : Nat) (bs : Bytes) : (s.memWrite cfg a bs).fault = s.fault := rfl
@[simp] theorem memWrite_found (cfg : Config) (a : Nat) (bs : Bytes) : (s.memWrite cfg a bs).found = s.found := rfl
@[simp] theorem memWrite_fcode (cfg : Config) (a : Nat) (bs : Bytes) : (s.memWrite cfg a bs).fcode = s.fcode := rfl
@[simp] theorem memWrite_arg0 (cfg : Config) (a : Nat) (bs : Bytes) : (s.memWrite cfg a bs).arg0 = s.arg0 := rfl
@[simp] theorem memWrite_arg1 (cfg : Config) (a : Nat) (bs : Bytes) : (s.memWrite cfg a bs).arg1 = s.arg1 := rfl
@[simp] theorem memWrite_arg2 (cfg : Config) (a : Nat) (bs : Bytes) : (s.memWrite cfg a bs).arg2 = s.arg2 := rfl
@[simp] theorem memWrite_arg3 (cfg : Config) (a : Nat) (bs : Bytes) : (s.memWrite cfg a bs).arg3 = s.arg3 := rfl
@[simp] theorem memWrite_result (cfg : Config) (a : Nat) (bs : Bytes) : (s.memWrite cfg a bs).result = s.result := rfl
@[simp] theorem memWrite_cancel (cfg : Config) (a : Nat) (bs : Bytes) : (s.memWrite cfg a bs).cancel = s.cancel := rfl
@[simp] theorem memWrite_ctx (cfg : Config) (a : Nat) (bs : Bytes) : (s.memWrite cfg a bs).ctx = s.ctx := rfl
@[simp] theorem memWrite_midValid (cfg : Config) (a : Nat) (bs : Bytes) : (s.memWrite cfg a bs).midValid = s.midValid := rfl
@[simp] theorem memWrite_midS (cfg : Config) (a : Nat) (bs : Bytes) : (s.memWrite cfg a bs).midS = s.midS := rfl
@[simp] theorem memWrite_srch (cfg : Config) (a : Nat) (bs : Bytes) : (s.memWrite cfg a bs).srch = s.srch := rfl
@[simp] theorem memWrite_pend (cfg : Config) (a : Nat) (bs : Bytes) : (s.memWrite cfg a bs).pend = s.pend := rfl
@[simp] theorem memWrite_buf (cfg : Config) (a : Nat) (bs : Bytes) : (s.memWrite cfg a bs).buf = s.buf.putBytes cfg.bufSize a bs := rfl
@[simp] theorem memWrite_epoch (cfg : Config) (a : Nat) (bs : Bytes) : (s.memWrite cfg a bs).epoch = s.epoch := rfl
@[simp] theorem memWrite_draws (cfg : Config) (a : Nat) (bs : Bytes) : (s.memWrite cfg a bs).draws = s.draws := rfl
@[simp] theorem memWrite_agenda (cfg : Config) (a : Nat) (bs : Bytes) : (s.memWrite cfg a bs).agenda = s.agenda := rfl
@[simp] theorem memWrite_observed (cfg : Config) (a : Nat) (bs : Bytes) : (s.memWrite cfg a bs).observed = s.observed := rfl

/-! ### `setSlot` -/

@[simp] theorem setSlot_busy (k : BitVec 4) (c : Ctx) : (s.setSlot k c).busy = s.busy := rfl
@[simp] theorem setSlot_fault (k : BitVec 4) (c : Ctx) : (s.setSlot k c).fault = s.fault := rfl
@[simp] theorem setSlot_found (k : BitVec 4) (c : Ctx) : (s.setSlot k c).found = s.found := rfl
@[simp] theorem setSlot_fcode (k : BitVec 4) (c : Ctx) : (s.setSlot k c).fcode = s.fcode := rfl
@[simp] theorem setSlot_arg0 (k : BitVec 4) (c : Ctx) : (s.setSlot k c).arg0 = s.arg0 := rfl
@[simp] theorem setSlot_arg1 (k : BitVec 4) (c : Ctx) : (s.setSlot k c).arg1 = s.arg1 := rfl
@[simp] theorem setSlot_arg2 (k : BitVec 4) (c : Ctx) : (s.setSlot k c).arg2 = s.arg2 := rfl
@[simp] theorem setSlot_arg3 (k : BitVec 4) (c : Ctx) : (s.setSlot k c).arg3 = s.arg3 := rfl
@[simp] theorem setSlot_result (k : BitVec 4) (c : Ctx) : (s.setSlot k c).result = s.result := rfl
@[simp] theorem setSlot_cancel (k : BitVec 4) (c : Ctx) : (s.setSlot k c).cancel = s.cancel := rfl
@[simp] theorem setSlot_ctx (k : BitVec 4) (c : Ctx) : (s.setSlot k c).ctx = s.ctx.set k.toNat c := rfl
@[simp] theorem setSlot_midValid (k : BitVec 4) (c : Ctx) : (s.setSlot k c).midValid = s.midValid := rfl
@[simp] theorem setSlot_midS (k : BitVec 4) (c : Ctx) : (s.setSlot k c).midS = s.midS := rfl
@[simp] theorem setSlot_srch (k : BitVec 4) (c : Ctx) : (s.setSlot k c).srch = s.srch := rfl
@[simp] theorem setSlot_pend (k : BitVec 4) (c : Ctx) : (s.setSlot k c).pend = s.pend := rfl
@[simp] theorem setSlot_buf (k : BitVec 4) (c : Ctx) : (s.setSlot k c).buf = s.buf := rfl
@[simp] theorem setSlot_epoch (k : BitVec 4) (c : Ctx) : (s.setSlot k c).epoch = s.epoch := rfl
@[simp] theorem setSlot_draws (k : BitVec 4) (c : Ctx) : (s.setSlot k c).draws = s.draws := rfl
@[simp] theorem setSlot_agenda (k : BitVec 4) (c : Ctx) : (s.setSlot k c).agenda = s.agenda := rfl
@[simp] theorem setSlot_observed (k : BitVec 4) (c : Ctx) : (s.setSlot k c).observed = s.observed := rfl

/-! ### `setResult` -/

@[simp] theorem setResult_busy (v : Word) : (s.setResult v).busy = s.busy := rfl
@[simp] theorem setResult_fault (v : Word) : (s.setResult v).fault = s.fault := rfl
@[simp] theorem setResult_found (v : Word) : (s.setResult v).found = s.found := rfl
@[simp] theorem setResult_fcode (v : Word) : (s.setResult v).fcode = s.fcode := rfl
@[simp] theorem setResult_arg0 (v : Word) : (s.setResult v).arg0 = s.arg0 := rfl
@[simp] theorem setResult_arg1 (v : Word) : (s.setResult v).arg1 = s.arg1 := rfl
@[simp] theorem setResult_arg2 (v : Word) : (s.setResult v).arg2 = s.arg2 := rfl
@[simp] theorem setResult_arg3 (v : Word) : (s.setResult v).arg3 = s.arg3 := rfl
@[simp] theorem setResult_result (v : Word) : (s.setResult v).result = v := rfl
@[simp] theorem setResult_cancel (v : Word) : (s.setResult v).cancel = s.cancel := rfl
@[simp] theorem setResult_ctx (v : Word) : (s.setResult v).ctx = s.ctx := rfl
@[simp] theorem setResult_midValid (v : Word) : (s.setResult v).midValid = s.midValid := rfl
@[simp] theorem setResult_midS (v : Word) : (s.setResult v).midS = s.midS := rfl
@[simp] theorem setResult_srch (v : Word) : (s.setResult v).srch = s.srch := rfl
@[simp] theorem setResult_pend (v : Word) : (s.setResult v).pend = s.pend := rfl
@[simp] theorem setResult_buf (v : Word) : (s.setResult v).buf = s.buf := rfl
@[simp] theorem setResult_epoch (v : Word) : (s.setResult v).epoch = s.epoch := rfl
@[simp] theorem setResult_draws (v : Word) : (s.setResult v).draws = s.draws := rfl
@[simp] theorem setResult_agenda (v : Word) : (s.setResult v).agenda = s.agenda := rfl
@[simp] theorem setResult_observed (v : Word) : (s.setResult v).observed = s.observed := rfl

/-! ### `setMidstate` -/

@[simp] theorem setMidstate_busy (m : Mid) : (s.setMidstate m).busy = s.busy := rfl
@[simp] theorem setMidstate_fault (m : Mid) : (s.setMidstate m).fault = s.fault := rfl
@[simp] theorem setMidstate_found (m : Mid) : (s.setMidstate m).found = s.found := rfl
@[simp] theorem setMidstate_fcode (m : Mid) : (s.setMidstate m).fcode = s.fcode := rfl
@[simp] theorem setMidstate_arg0 (m : Mid) : (s.setMidstate m).arg0 = s.arg0 := rfl
@[simp] theorem setMidstate_arg1 (m : Mid) : (s.setMidstate m).arg1 = s.arg1 := rfl
@[simp] theorem setMidstate_arg2 (m : Mid) : (s.setMidstate m).arg2 = s.arg2 := rfl
@[simp] theorem setMidstate_arg3 (m : Mid) : (s.setMidstate m).arg3 = s.arg3 := rfl
@[simp] theorem setMidstate_result (m : Mid) : (s.setMidstate m).result = s.result := rfl
@[simp] theorem setMidstate_cancel (m : Mid) : (s.setMidstate m).cancel = s.cancel := rfl
@[simp] theorem setMidstate_ctx (m : Mid) : (s.setMidstate m).ctx = s.ctx := rfl
@[simp] theorem setMidstate_midValid (m : Mid) : (s.setMidstate m).midValid = true := rfl
@[simp] theorem setMidstate_midS (m : Mid) : (s.setMidstate m).midS = m := rfl
@[simp] theorem setMidstate_srch (m : Mid) : (s.setMidstate m).srch = s.srch := rfl
@[simp] theorem setMidstate_pend (m : Mid) : (s.setMidstate m).pend = s.pend := rfl
@[simp] theorem setMidstate_buf (m : Mid) : (s.setMidstate m).buf = s.buf := rfl
@[simp] theorem setMidstate_epoch (m : Mid) : (s.setMidstate m).epoch = s.epoch := rfl
@[simp] theorem setMidstate_draws (m : Mid) : (s.setMidstate m).draws = s.draws := rfl
@[simp] theorem setMidstate_agenda (m : Mid) : (s.setMidstate m).agenda = s.agenda := rfl
@[simp] theorem setMidstate_observed (m : Mid) : (s.setMidstate m).observed = s.observed := rfl

/-! ### `setSrch` -/

@[simp] theorem setSrch_busy (r : Srch) : (s.setSrch r).busy = s.busy := rfl
@[simp] theorem setSrch_fault (r : Srch) : (s.setSrch r).fault = s.fault := rfl
@[simp] theorem setSrch_found (r : Srch) : (s.setSrch r).found = s.found := rfl
@[simp] theorem setSrch_fcode (r : Srch) : (s.setSrch r).fcode = s.fcode := rfl
@[simp] theorem setSrch_arg0 (r : Srch) : (s.setSrch r).arg0 = s.arg0 := rfl
@[simp] theorem setSrch_arg1 (r : Srch) : (s.setSrch r).arg1 = s.arg1 := rfl
@[simp] theorem setSrch_arg2 (r : Srch) : (s.setSrch r).arg2 = s.arg2 := rfl
@[simp] theorem setSrch_arg3 (r : Srch) : (s.setSrch r).arg3 = s.arg3 := rfl
@[simp] theorem setSrch_result (r : Srch) : (s.setSrch r).result = s.result := rfl
@[simp] theorem setSrch_cancel (r : Srch) : (s.setSrch r).cancel = s.cancel := rfl
@[simp] theorem setSrch_ctx (r : Srch) : (s.setSrch r).ctx = s.ctx := rfl
@[simp] theorem setSrch_midValid (r : Srch) : (s.setSrch r).midValid = s.midValid := rfl
@[simp] theorem setSrch_midS (r : Srch) : (s.setSrch r).midS = s.midS := rfl
@[simp] theorem setSrch_srch (r : Srch) : (s.setSrch r).srch = r := rfl
@[simp] theorem setSrch_pend (r : Srch) : (s.setSrch r).pend = s.pend := rfl
@[simp] theorem setSrch_buf (r : Srch) : (s.setSrch r).buf = s.buf := rfl
@[simp] theorem setSrch_epoch (r : Srch) : (s.setSrch r).epoch = s.epoch := rfl
@[simp] theorem setSrch_draws (r : Srch) : (s.setSrch r).draws = s.draws := rfl
@[simp] theorem setSrch_agenda (r : Srch) : (s.setSrch r).agenda = s.agenda := rfl
@[simp] theorem setSrch_observed (r : Srch) : (s.setSrch r).observed = s.observed := rfl

/-! ### `setCancel` -/

@[simp] theorem setCancel_busy (v : Word) : (s.setCancel v).busy = s.busy := rfl
@[simp] theorem setCancel_fault (v : Word) : (s.setCancel v).fault = s.fault := rfl
@[simp] theorem setCancel_found (v : Word) : (s.setCancel v).found = s.found := rfl
@[simp] theorem setCancel_fcode (v : Word) : (s.setCancel v).fcode = s.fcode := rfl
@[simp] theorem setCancel_arg0 (v : Word) : (s.setCancel v).arg0 = s.arg0 := rfl
@[simp] theorem setCancel_arg1 (v : Word) : (s.setCancel v).arg1 = s.arg1 := rfl
@[simp] theorem setCancel_arg2 (v : Word) : (s.setCancel v).arg2 = s.arg2 := rfl
@[simp] theorem setCancel_arg3 (v : Word) : (s.setCancel v).arg3 = s.arg3 := rfl
@[simp] theorem setCancel_result (v : Word) : (s.setCancel v).result = s.result := rfl
@[simp] theorem setCancel_cancel (v : Word) : (s.setCancel v).cancel = v.getLsbD 0 := rfl
@[simp] theorem setCancel_ctx (v : Word) : (s.setCancel v).ctx = s.ctx := rfl
@[simp] theorem setCancel_midValid (v : Word) : (s.setCancel v).midValid = s.midValid := rfl
@[simp] theorem setCancel_midS (v : Word) : (s.setCancel v).midS = s.midS := rfl
@[simp] theorem setCancel_srch (v : Word) : (s.setCancel v).srch = s.srch := rfl
@[simp] theorem setCancel_pend (v : Word) : (s.setCancel v).pend = s.pend := rfl
@[simp] theorem setCancel_buf (v : Word) : (s.setCancel v).buf = s.buf := rfl
@[simp] theorem setCancel_epoch (v : Word) : (s.setCancel v).epoch = s.epoch := rfl
@[simp] theorem setCancel_draws (v : Word) : (s.setCancel v).draws = s.draws := rfl
@[simp] theorem setCancel_agenda (v : Word) : (s.setCancel v).agenda = s.agenda := rfl
@[simp] theorem setCancel_observed (v : Word) : (s.setCancel v).observed = s.observed := rfl

/-! ### `issue` -/

@[simp] theorem issue_busy (w : Word) : (s.issue w).busy = true := rfl
@[simp] theorem issue_fault (w : Word) : (s.issue w).fault = s.fault := rfl
@[simp] theorem issue_found (w : Word) : (s.issue w).found = s.found := rfl
@[simp] theorem issue_fcode (w : Word) : (s.issue w).fcode = s.fcode := rfl
@[simp] theorem issue_arg0 (w : Word) : (s.issue w).arg0 = s.arg0 := rfl
@[simp] theorem issue_arg1 (w : Word) : (s.issue w).arg1 = s.arg1 := rfl
@[simp] theorem issue_arg2 (w : Word) : (s.issue w).arg2 = s.arg2 := rfl
@[simp] theorem issue_arg3 (w : Word) : (s.issue w).arg3 = s.arg3 := rfl
@[simp] theorem issue_result (w : Word) : (s.issue w).result = s.result := rfl
@[simp] theorem issue_cancel (w : Word) : (s.issue w).cancel = s.cancel := rfl
@[simp] theorem issue_ctx (w : Word) : (s.issue w).ctx = s.ctx := rfl
@[simp] theorem issue_midValid (w : Word) : (s.issue w).midValid = s.midValid := rfl
@[simp] theorem issue_midS (w : Word) : (s.issue w).midS = s.midS := rfl
@[simp] theorem issue_srch (w : Word) : (s.issue w).srch = s.srch := rfl
@[simp] theorem issue_pend (w : Word) : (s.issue w).pend = some w := rfl
@[simp] theorem issue_buf (w : Word) : (s.issue w).buf = s.buf := rfl
@[simp] theorem issue_epoch (w : Word) : (s.issue w).epoch = s.epoch := rfl
@[simp] theorem issue_draws (w : Word) : (s.issue w).draws = s.draws := rfl
@[simp] theorem issue_agenda (w : Word) : (s.issue w).agenda = s.agenda := rfl
@[simp] theorem issue_observed (w : Word) : (s.issue w).observed = s.observed := rfl

/-! ### `complete` -/

@[simp] theorem complete_busy : (s.complete).busy = false := rfl
@[simp] theorem complete_fault : (s.complete).fault = s.fault := rfl
@[simp] theorem complete_found : (s.complete).found = s.found := rfl
@[simp] theorem complete_fcode : (s.complete).fcode = s.fcode := rfl
@[simp] theorem complete_arg0 : (s.complete).arg0 = s.arg0 := rfl
@[simp] theorem complete_arg1 : (s.complete).arg1 = s.arg1 := rfl
@[simp] theorem complete_arg2 : (s.complete).arg2 = s.arg2 := rfl
@[simp] theorem complete_arg3 : (s.complete).arg3 = s.arg3 := rfl
@[simp] theorem complete_result : (s.complete).result = s.result := rfl
@[simp] theorem complete_cancel : (s.complete).cancel = s.cancel := rfl
@[simp] theorem complete_ctx : (s.complete).ctx = s.ctx := rfl
@[simp] theorem complete_midValid : (s.complete).midValid = s.midValid := rfl
@[simp] theorem complete_midS : (s.complete).midS = s.midS := rfl
@[simp] theorem complete_srch : (s.complete).srch = s.srch := rfl
@[simp] theorem complete_pend : (s.complete).pend = none := rfl
@[simp] theorem complete_buf : (s.complete).buf = s.buf := rfl
@[simp] theorem complete_epoch : (s.complete).epoch = s.epoch := rfl
@[simp] theorem complete_draws : (s.complete).draws = s.draws := rfl
@[simp] theorem complete_agenda : (s.complete).agenda = s.agenda := rfl
@[simp] theorem complete_observed : (s.complete).observed = s.observed := rfl

/-! ### `endSearch` -/

@[simp] theorem endSearch_busy (found : Bool) : (s.endSearch found).busy = false := rfl
@[simp] theorem endSearch_fault (found : Bool) : (s.endSearch found).fault = s.fault := rfl
@[simp] theorem endSearch_found (found : Bool) : (s.endSearch found).found = found := rfl
@[simp] theorem endSearch_fcode (found : Bool) : (s.endSearch found).fcode = s.fcode := rfl
@[simp] theorem endSearch_arg0 (found : Bool) : (s.endSearch found).arg0 = s.arg0 := rfl
@[simp] theorem endSearch_arg1 (found : Bool) : (s.endSearch found).arg1 = s.arg1 := rfl
@[simp] theorem endSearch_arg2 (found : Bool) : (s.endSearch found).arg2 = s.arg2 := rfl
@[simp] theorem endSearch_arg3 (found : Bool) : (s.endSearch found).arg3 = s.arg3 := rfl
@[simp] theorem endSearch_result (found : Bool) : (s.endSearch found).result = s.srch.n := rfl
@[simp] theorem endSearch_cancel (found : Bool) : (s.endSearch found).cancel = s.cancel := rfl
@[simp] theorem endSearch_ctx (found : Bool) : (s.endSearch found).ctx = s.ctx := rfl
@[simp] theorem endSearch_midValid (found : Bool) : (s.endSearch found).midValid = s.midValid := rfl
@[simp] theorem endSearch_midS (found : Bool) : (s.endSearch found).midS = s.midS := rfl
@[simp] theorem endSearch_srch (found : Bool) : (s.endSearch found).srch = { s.srch with started := false } := rfl
@[simp] theorem endSearch_pend (found : Bool) : (s.endSearch found).pend = none := rfl
@[simp] theorem endSearch_buf (found : Bool) : (s.endSearch found).buf = s.buf := rfl
@[simp] theorem endSearch_epoch (found : Bool) : (s.endSearch found).epoch = s.epoch := rfl
@[simp] theorem endSearch_draws (found : Bool) : (s.endSearch found).draws = s.draws := rfl
@[simp] theorem endSearch_agenda (found : Bool) : (s.endSearch found).agenda = s.agenda := rfl
@[simp] theorem endSearch_observed (found : Bool) : (s.endSearch found).observed = s.observed := rfl

/-! ### `observe` -/

@[simp] theorem observe_busy (v : Word) : (s.observe v).busy = s.busy := rfl
@[simp] theorem observe_fault (v : Word) : (s.observe v).fault = s.fault := rfl
@[simp] theorem observe_found (v : Word) : (s.observe v).found = s.found := rfl
@[simp] theorem observe_fcode (v : Word) : (s.observe v).fcode = s.fcode := rfl
@[simp] theorem observe_arg0 (v : Word) : (s.observe v).arg0 = s.arg0 := rfl
@[simp] theorem observe_arg1 (v : Word) : (s.observe v).arg1 = s.arg1 := rfl
@[simp] theorem observe_arg2 (v : Word) : (s.observe v).arg2 = s.arg2 := rfl
@[simp] theorem observe_arg3 (v : Word) : (s.observe v).arg3 = s.arg3 := rfl
@[simp] theorem observe_result (v : Word) : (s.observe v).result = s.result := rfl
@[simp] theorem observe_cancel (v : Word) : (s.observe v).cancel = s.cancel := rfl
@[simp] theorem observe_ctx (v : Word) : (s.observe v).ctx = s.ctx := rfl
@[simp] theorem observe_midValid (v : Word) : (s.observe v).midValid = s.midValid := rfl
@[simp] theorem observe_midS (v : Word) : (s.observe v).midS = s.midS := rfl
@[simp] theorem observe_srch (v : Word) : (s.observe v).srch = s.srch := rfl
@[simp] theorem observe_pend (v : Word) : (s.observe v).pend = s.pend := rfl
@[simp] theorem observe_buf (v : Word) : (s.observe v).buf = s.buf := rfl
@[simp] theorem observe_epoch (v : Word) : (s.observe v).epoch = s.epoch := rfl
@[simp] theorem observe_draws (v : Word) : (s.observe v).draws = s.draws + 1 := rfl
@[simp] theorem observe_agenda (v : Word) : (s.observe v).agenda = s.agenda := rfl
@[simp] theorem observe_observed (v : Word) : (s.observe v).observed = v :: s.observed := rfl

/-! ### `dropTurn` -/

@[simp] theorem dropTurn_busy : (s.dropTurn).busy = s.busy := rfl
@[simp] theorem dropTurn_fault : (s.dropTurn).fault = s.fault := rfl
@[simp] theorem dropTurn_found : (s.dropTurn).found = s.found := rfl
@[simp] theorem dropTurn_fcode : (s.dropTurn).fcode = s.fcode := rfl
@[simp] theorem dropTurn_arg0 : (s.dropTurn).arg0 = s.arg0 := rfl
@[simp] theorem dropTurn_arg1 : (s.dropTurn).arg1 = s.arg1 := rfl
@[simp] theorem dropTurn_arg2 : (s.dropTurn).arg2 = s.arg2 := rfl
@[simp] theorem dropTurn_arg3 : (s.dropTurn).arg3 = s.arg3 := rfl
@[simp] theorem dropTurn_result : (s.dropTurn).result = s.result := rfl
@[simp] theorem dropTurn_cancel : (s.dropTurn).cancel = s.cancel := rfl
@[simp] theorem dropTurn_ctx : (s.dropTurn).ctx = s.ctx := rfl
@[simp] theorem dropTurn_midValid : (s.dropTurn).midValid = s.midValid := rfl
@[simp] theorem dropTurn_midS : (s.dropTurn).midS = s.midS := rfl
@[simp] theorem dropTurn_srch : (s.dropTurn).srch = s.srch := rfl
@[simp] theorem dropTurn_pend : (s.dropTurn).pend = s.pend := rfl
@[simp] theorem dropTurn_buf : (s.dropTurn).buf = s.buf := rfl
@[simp] theorem dropTurn_epoch : (s.dropTurn).epoch = s.epoch := rfl
@[simp] theorem dropTurn_draws : (s.dropTurn).draws = s.draws := rfl
@[simp] theorem dropTurn_agenda : (s.dropTurn).agenda = s.agenda.tail := rfl
@[simp] theorem dropTurn_observed : (s.dropTurn).observed = s.observed := rfl

/-! ### `latchCommand` -/

@[simp] theorem latchCommand_busy (w : Word) : (s.latchCommand w).busy = true := rfl
@[simp] theorem latchCommand_fault (w : Word) : (s.latchCommand w).fault = s.fault := rfl
@[simp] theorem latchCommand_found (w : Word) : (s.latchCommand w).found = s.found := rfl
@[simp] theorem latchCommand_fcode (w : Word) : (s.latchCommand w).fcode = s.fcode := rfl
@[simp] theorem latchCommand_arg0 (w : Word) : (s.latchCommand w).arg0 = s.arg0 := rfl
@[simp] theorem latchCommand_arg1 (w : Word) : (s.latchCommand w).arg1 = s.arg1 := rfl
@[simp] theorem latchCommand_arg2 (w : Word) : (s.latchCommand w).arg2 = s.arg2 := rfl
@[simp] theorem latchCommand_arg3 (w : Word) : (s.latchCommand w).arg3 = s.arg3 := rfl
@[simp] theorem latchCommand_result (w : Word) : (s.latchCommand w).result = s.result := rfl
@[simp] theorem latchCommand_cancel (w : Word) : (s.latchCommand w).cancel = s.cancel := rfl
@[simp] theorem latchCommand_ctx (w : Word) : (s.latchCommand w).ctx = s.ctx := rfl
@[simp] theorem latchCommand_midValid (w : Word) : (s.latchCommand w).midValid = s.midValid := rfl
@[simp] theorem latchCommand_midS (w : Word) : (s.latchCommand w).midS = s.midS := rfl
@[simp] theorem latchCommand_srch (w : Word) : (s.latchCommand w).srch = { s.srch with started := false } := rfl
@[simp] theorem latchCommand_pend (w : Word) : (s.latchCommand w).pend = some w := rfl
@[simp] theorem latchCommand_buf (w : Word) : (s.latchCommand w).buf = s.buf := rfl
@[simp] theorem latchCommand_epoch (w : Word) : (s.latchCommand w).epoch = s.epoch := rfl
@[simp] theorem latchCommand_draws (w : Word) : (s.latchCommand w).draws = s.draws := rfl
@[simp] theorem latchCommand_agenda (w : Word) : (s.latchCommand w).agenda = .engine :: s.agenda := rfl
@[simp] theorem latchCommand_observed (w : Word) : (s.latchCommand w).observed = s.observed := rfl

/-! ### `faultEntry` -/

@[simp] theorem faultEntry_busy (f : FaultCode) : (s.faultEntry f).busy = false := rfl
@[simp] theorem faultEntry_fault (f : FaultCode) : (s.faultEntry f).fault = true := rfl
@[simp] theorem faultEntry_found (f : FaultCode) : (s.faultEntry f).found = s.found := rfl
@[simp] theorem faultEntry_fcode (f : FaultCode) : (s.faultEntry f).fcode = if s.fault then s.fcode else faultNumber f := rfl
@[simp] theorem faultEntry_arg0 (f : FaultCode) : (s.faultEntry f).arg0 = s.arg0 := rfl
@[simp] theorem faultEntry_arg1 (f : FaultCode) : (s.faultEntry f).arg1 = s.arg1 := rfl
@[simp] theorem faultEntry_arg2 (f : FaultCode) : (s.faultEntry f).arg2 = s.arg2 := rfl
@[simp] theorem faultEntry_arg3 (f : FaultCode) : (s.faultEntry f).arg3 = s.arg3 := rfl
@[simp] theorem faultEntry_result (f : FaultCode) : (s.faultEntry f).result = s.result := rfl
@[simp] theorem faultEntry_cancel (f : FaultCode) : (s.faultEntry f).cancel = s.cancel := rfl
@[simp] theorem faultEntry_ctx (f : FaultCode) : (s.faultEntry f).ctx = s.ctx := rfl
@[simp] theorem faultEntry_midValid (f : FaultCode) : (s.faultEntry f).midValid = s.midValid := rfl
@[simp] theorem faultEntry_midS (f : FaultCode) : (s.faultEntry f).midS = s.midS := rfl
@[simp] theorem faultEntry_srch (f : FaultCode) : (s.faultEntry f).srch = { s.srch with started := false } := rfl
@[simp] theorem faultEntry_pend (f : FaultCode) : (s.faultEntry f).pend = none := rfl
@[simp] theorem faultEntry_buf (f : FaultCode) : (s.faultEntry f).buf = s.buf := rfl
@[simp] theorem faultEntry_epoch (f : FaultCode) : (s.faultEntry f).epoch = s.epoch := rfl
@[simp] theorem faultEntry_draws (f : FaultCode) : (s.faultEntry f).draws = s.draws := rfl
@[simp] theorem faultEntry_agenda (f : FaultCode) : (s.faultEntry f).agenda = s.agenda := rfl
@[simp] theorem faultEntry_observed (f : FaultCode) : (s.faultEntry f).observed = s.observed := rfl

/-! ### `hostReset` -/

@[simp] theorem hostReset_busy : (s.hostReset).busy = State.reset.busy := rfl
@[simp] theorem hostReset_fault : (s.hostReset).fault = State.reset.fault := rfl
@[simp] theorem hostReset_found : (s.hostReset).found = State.reset.found := rfl
@[simp] theorem hostReset_fcode : (s.hostReset).fcode = State.reset.fcode := rfl
@[simp] theorem hostReset_arg0 : (s.hostReset).arg0 = State.reset.arg0 := rfl
@[simp] theorem hostReset_arg1 : (s.hostReset).arg1 = State.reset.arg1 := rfl
@[simp] theorem hostReset_arg2 : (s.hostReset).arg2 = State.reset.arg2 := rfl
@[simp] theorem hostReset_arg3 : (s.hostReset).arg3 = State.reset.arg3 := rfl
@[simp] theorem hostReset_result : (s.hostReset).result = State.reset.result := rfl
@[simp] theorem hostReset_cancel : (s.hostReset).cancel = State.reset.cancel := rfl
@[simp] theorem hostReset_ctx : (s.hostReset).ctx = State.reset.ctx := rfl
@[simp] theorem hostReset_midValid : (s.hostReset).midValid = State.reset.midValid := rfl
@[simp] theorem hostReset_midS : (s.hostReset).midS = State.reset.midS := rfl
@[simp] theorem hostReset_srch : (s.hostReset).srch = State.reset.srch := rfl
@[simp] theorem hostReset_pend : (s.hostReset).pend = State.reset.pend := rfl
@[simp] theorem hostReset_buf : (s.hostReset).buf = State.reset.buf := rfl
@[simp] theorem hostReset_epoch : (s.hostReset).epoch = s.epoch + 1 := rfl
@[simp] theorem hostReset_draws : (s.hostReset).draws = s.draws := rfl
@[simp] theorem hostReset_agenda : (s.hostReset).agenda = s.agenda := rfl
@[simp] theorem hostReset_observed : (s.hostReset).observed = s.observed := rfl

/-! ### `setArg` -/

@[simp] theorem setArg0_busy (v : Word) : (s.setArg 0 v).busy = s.busy := rfl
@[simp] theorem setArg0_fault (v : Word) : (s.setArg 0 v).fault = s.fault := rfl
@[simp] theorem setArg0_found (v : Word) : (s.setArg 0 v).found = s.found := rfl
@[simp] theorem setArg0_fcode (v : Word) : (s.setArg 0 v).fcode = s.fcode := rfl
@[simp] theorem setArg0_arg0 (v : Word) : (s.setArg 0 v).arg0 = v := rfl
@[simp] theorem setArg0_arg1 (v : Word) : (s.setArg 0 v).arg1 = s.arg1 := rfl
@[simp] theorem setArg0_arg2 (v : Word) : (s.setArg 0 v).arg2 = s.arg2 := rfl
@[simp] theorem setArg0_arg3 (v : Word) : (s.setArg 0 v).arg3 = s.arg3 := rfl
@[simp] theorem setArg0_result (v : Word) : (s.setArg 0 v).result = s.result := rfl
@[simp] theorem setArg0_cancel (v : Word) : (s.setArg 0 v).cancel = s.cancel := rfl
@[simp] theorem setArg0_ctx (v : Word) : (s.setArg 0 v).ctx = s.ctx := rfl
@[simp] theorem setArg0_midValid (v : Word) : (s.setArg 0 v).midValid = s.midValid := rfl
@[simp] theorem setArg0_midS (v : Word) : (s.setArg 0 v).midS = s.midS := rfl
@[simp] theorem setArg0_srch (v : Word) : (s.setArg 0 v).srch = s.srch := rfl
@[simp] theorem setArg0_pend (v : Word) : (s.setArg 0 v).pend = s.pend := rfl
@[simp] theorem setArg0_buf (v : Word) : (s.setArg 0 v).buf = s.buf := rfl
@[simp] theorem setArg0_epoch (v : Word) : (s.setArg 0 v).epoch = s.epoch := rfl
@[simp] theorem setArg0_draws (v : Word) : (s.setArg 0 v).draws = s.draws := rfl
@[simp] theorem setArg0_agenda (v : Word) : (s.setArg 0 v).agenda = s.agenda := rfl
@[simp] theorem setArg0_observed (v : Word) : (s.setArg 0 v).observed = s.observed := rfl
@[simp] theorem setArg1_busy (v : Word) : (s.setArg 1 v).busy = s.busy := rfl
@[simp] theorem setArg1_fault (v : Word) : (s.setArg 1 v).fault = s.fault := rfl
@[simp] theorem setArg1_found (v : Word) : (s.setArg 1 v).found = s.found := rfl
@[simp] theorem setArg1_fcode (v : Word) : (s.setArg 1 v).fcode = s.fcode := rfl
@[simp] theorem setArg1_arg0 (v : Word) : (s.setArg 1 v).arg0 = s.arg0 := rfl
@[simp] theorem setArg1_arg1 (v : Word) : (s.setArg 1 v).arg1 = v := rfl
@[simp] theorem setArg1_arg2 (v : Word) : (s.setArg 1 v).arg2 = s.arg2 := rfl
@[simp] theorem setArg1_arg3 (v : Word) : (s.setArg 1 v).arg3 = s.arg3 := rfl
@[simp] theorem setArg1_result (v : Word) : (s.setArg 1 v).result = s.result := rfl
@[simp] theorem setArg1_cancel (v : Word) : (s.setArg 1 v).cancel = s.cancel := rfl
@[simp] theorem setArg1_ctx (v : Word) : (s.setArg 1 v).ctx = s.ctx := rfl
@[simp] theorem setArg1_midValid (v : Word) : (s.setArg 1 v).midValid = s.midValid := rfl
@[simp] theorem setArg1_midS (v : Word) : (s.setArg 1 v).midS = s.midS := rfl
@[simp] theorem setArg1_srch (v : Word) : (s.setArg 1 v).srch = s.srch := rfl
@[simp] theorem setArg1_pend (v : Word) : (s.setArg 1 v).pend = s.pend := rfl
@[simp] theorem setArg1_buf (v : Word) : (s.setArg 1 v).buf = s.buf := rfl
@[simp] theorem setArg1_epoch (v : Word) : (s.setArg 1 v).epoch = s.epoch := rfl
@[simp] theorem setArg1_draws (v : Word) : (s.setArg 1 v).draws = s.draws := rfl
@[simp] theorem setArg1_agenda (v : Word) : (s.setArg 1 v).agenda = s.agenda := rfl
@[simp] theorem setArg1_observed (v : Word) : (s.setArg 1 v).observed = s.observed := rfl
@[simp] theorem setArg2_busy (v : Word) : (s.setArg 2 v).busy = s.busy := rfl
@[simp] theorem setArg2_fault (v : Word) : (s.setArg 2 v).fault = s.fault := rfl
@[simp] theorem setArg2_found (v : Word) : (s.setArg 2 v).found = s.found := rfl
@[simp] theorem setArg2_fcode (v : Word) : (s.setArg 2 v).fcode = s.fcode := rfl
@[simp] theorem setArg2_arg0 (v : Word) : (s.setArg 2 v).arg0 = s.arg0 := rfl
@[simp] theorem setArg2_arg1 (v : Word) : (s.setArg 2 v).arg1 = s.arg1 := rfl
@[simp] theorem setArg2_arg2 (v : Word) : (s.setArg 2 v).arg2 = v := rfl
@[simp] theorem setArg2_arg3 (v : Word) : (s.setArg 2 v).arg3 = s.arg3 := rfl
@[simp] theorem setArg2_result (v : Word) : (s.setArg 2 v).result = s.result := rfl
@[simp] theorem setArg2_cancel (v : Word) : (s.setArg 2 v).cancel = s.cancel := rfl
@[simp] theorem setArg2_ctx (v : Word) : (s.setArg 2 v).ctx = s.ctx := rfl
@[simp] theorem setArg2_midValid (v : Word) : (s.setArg 2 v).midValid = s.midValid := rfl
@[simp] theorem setArg2_midS (v : Word) : (s.setArg 2 v).midS = s.midS := rfl
@[simp] theorem setArg2_srch (v : Word) : (s.setArg 2 v).srch = s.srch := rfl
@[simp] theorem setArg2_pend (v : Word) : (s.setArg 2 v).pend = s.pend := rfl
@[simp] theorem setArg2_buf (v : Word) : (s.setArg 2 v).buf = s.buf := rfl
@[simp] theorem setArg2_epoch (v : Word) : (s.setArg 2 v).epoch = s.epoch := rfl
@[simp] theorem setArg2_draws (v : Word) : (s.setArg 2 v).draws = s.draws := rfl
@[simp] theorem setArg2_agenda (v : Word) : (s.setArg 2 v).agenda = s.agenda := rfl
@[simp] theorem setArg2_observed (v : Word) : (s.setArg 2 v).observed = s.observed := rfl
@[simp] theorem setArg3_busy (v : Word) : (s.setArg 3 v).busy = s.busy := rfl
@[simp] theorem setArg3_fault (v : Word) : (s.setArg 3 v).fault = s.fault := rfl
@[simp] theorem setArg3_found (v : Word) : (s.setArg 3 v).found = s.found := rfl
@[simp] theorem setArg3_fcode (v : Word) : (s.setArg 3 v).fcode = s.fcode := rfl
@[simp] theorem setArg3_arg0 (v : Word) : (s.setArg 3 v).arg0 = s.arg0 := rfl
@[simp] theorem setArg3_arg1 (v : Word) : (s.setArg 3 v).arg1 = s.arg1 := rfl
@[simp] theorem setArg3_arg2 (v : Word) : (s.setArg 3 v).arg2 = s.arg2 := rfl
@[simp] theorem setArg3_arg3 (v : Word) : (s.setArg 3 v).arg3 = v := rfl
@[simp] theorem setArg3_result (v : Word) : (s.setArg 3 v).result = s.result := rfl
@[simp] theorem setArg3_cancel (v : Word) : (s.setArg 3 v).cancel = s.cancel := rfl
@[simp] theorem setArg3_ctx (v : Word) : (s.setArg 3 v).ctx = s.ctx := rfl
@[simp] theorem setArg3_midValid (v : Word) : (s.setArg 3 v).midValid = s.midValid := rfl
@[simp] theorem setArg3_midS (v : Word) : (s.setArg 3 v).midS = s.midS := rfl
@[simp] theorem setArg3_srch (v : Word) : (s.setArg 3 v).srch = s.srch := rfl
@[simp] theorem setArg3_pend (v : Word) : (s.setArg 3 v).pend = s.pend := rfl
@[simp] theorem setArg3_buf (v : Word) : (s.setArg 3 v).buf = s.buf := rfl
@[simp] theorem setArg3_epoch (v : Word) : (s.setArg 3 v).epoch = s.epoch := rfl
@[simp] theorem setArg3_draws (v : Word) : (s.setArg 3 v).draws = s.draws := rfl
@[simp] theorem setArg3_agenda (v : Word) : (s.setArg 3 v).agenda = s.agenda := rfl
@[simp] theorem setArg3_observed (v : Word) : (s.setArg 3 v).observed = s.observed := rfl

/-! ### `setArg` of any register: every field but the ARG registers -/

@[simp] theorem setArg_busy (i : Fin 4) (v : Word) : (s.setArg i v).busy = s.busy := by
  unfold State.setArg; split <;> rfl
@[simp] theorem setArg_fault (i : Fin 4) (v : Word) : (s.setArg i v).fault = s.fault := by
  unfold State.setArg; split <;> rfl
@[simp] theorem setArg_found (i : Fin 4) (v : Word) : (s.setArg i v).found = s.found := by
  unfold State.setArg; split <;> rfl
@[simp] theorem setArg_fcode (i : Fin 4) (v : Word) : (s.setArg i v).fcode = s.fcode := by
  unfold State.setArg; split <;> rfl
@[simp] theorem setArg_result (i : Fin 4) (v : Word) : (s.setArg i v).result = s.result := by
  unfold State.setArg; split <;> rfl
@[simp] theorem setArg_cancel (i : Fin 4) (v : Word) : (s.setArg i v).cancel = s.cancel := by
  unfold State.setArg; split <;> rfl
@[simp] theorem setArg_ctx (i : Fin 4) (v : Word) : (s.setArg i v).ctx = s.ctx := by
  unfold State.setArg; split <;> rfl
@[simp] theorem setArg_midValid (i : Fin 4) (v : Word) : (s.setArg i v).midValid = s.midValid := by
  unfold State.setArg; split <;> rfl
@[simp] theorem setArg_midS (i : Fin 4) (v : Word) : (s.setArg i v).midS = s.midS := by
  unfold State.setArg; split <;> rfl
@[simp] theorem setArg_srch (i : Fin 4) (v : Word) : (s.setArg i v).srch = s.srch := by
  unfold State.setArg; split <;> rfl
@[simp] theorem setArg_pend (i : Fin 4) (v : Word) : (s.setArg i v).pend = s.pend := by
  unfold State.setArg; split <;> rfl
@[simp] theorem setArg_buf (i : Fin 4) (v : Word) : (s.setArg i v).buf = s.buf := by
  unfold State.setArg; split <;> rfl
@[simp] theorem setArg_epoch (i : Fin 4) (v : Word) : (s.setArg i v).epoch = s.epoch := by
  unfold State.setArg; split <;> rfl
@[simp] theorem setArg_draws (i : Fin 4) (v : Word) : (s.setArg i v).draws = s.draws := by
  unfold State.setArg; split <;> rfl
@[simp] theorem setArg_agenda (i : Fin 4) (v : Word) : (s.setArg i v).agenda = s.agenda := by
  unfold State.setArg; split <;> rfl
@[simp] theorem setArg_observed (i : Fin 4) (v : Word) : (s.setArg i v).observed = s.observed := by
  unfold State.setArg; split <;> rfl

end Sys2Proof.Machine.State
end

