-- ==== Sys2Proof/Laws/Memory.lean ====
section
/-!
SUPPORT. BUF: every operation keeps the canonical form, and what a byte reads as after a write.
-/

namespace Sys2Proof.Machine

/-! ### The canonical form -/

theorem Memory.keys_insertCell (m : Memory) (a : Nat) (b : Byte) (k : Nat) :
    k ∈ (m.insertCell a b).map Prod.fst ↔ k = a ∨ k ∈ m.map Prod.fst := by
  induction m with
  | nil => simp [Memory.insertCell]
  | cons e m ih =>
    obtain ⟨j, c⟩ := e
    simp only [Memory.insertCell]
    split
    · simp
    · split
      · subst_vars; simp
      · simp only [List.map_cons, List.mem_cons, ih]; tauto

theorem Memory.insertCell_wf {m : Memory} {size : Nat} (h : m.wf size) {a : Nat} (ha : a < size) (b : Byte) :
    (m.insertCell a b).wf size := by
  refine ⟨?_, fun k hk => ?_⟩
  · have hp := h.1
    clear h ha
    induction m with
    | nil => simp [Memory.insertCell]
    | cons e m ih =>
      obtain ⟨j, c⟩ := e
      simp only [List.map_cons, List.pairwise_cons] at hp
      simp only [Memory.insertCell]
      split
      · rename_i hlt
        simp only [List.map_cons, List.pairwise_cons, List.mem_cons]
        exact ⟨fun k hk => hk.elim (fun e => e ▸ hlt) fun hk => hlt.trans (hp.1 k hk), hp⟩
      · split
        · subst_vars; simpa using hp
        · simp only [List.map_cons, List.pairwise_cons]
          refine ⟨fun k hk => ?_, ih hp.2⟩
          rcases (Memory.keys_insertCell m a b k).1 hk with rfl | hk
          · omega
          · exact hp.1 k hk
  · rcases (Memory.keys_insertCell m a b k).1 hk with rfl | hk
    · exact ha
    · exact h.2 k hk

theorem Memory.putByte_wf {m : Memory} {size : Nat} (h : m.wf size) (a : Nat) (b : Byte) :
    (m.putByte size a b).wf size := by
  unfold Memory.putByte
  split
  · exact Memory.insertCell_wf h ‹_› b
  · exact h

theorem Memory.putBytes_wf {m : Memory} {size : Nat} (h : m.wf size) (a : Nat) (bs : Bytes) :
    (m.putBytes size a bs).wf size := by
  induction bs generalizing m a with
  | nil => exact h
  | cons b bs ih => exact ih (Memory.putByte_wf h a b) (a + 1)

theorem reset_buf_wf (size : Nat) : State.reset.buf.wf size := by simp [State.reset, Memory.wf]

/-! ### Reading after writing -/

theorem Memory.cell?_insertCell (m : Memory) (a : Nat) (b : Byte) (x : Nat) :
    (m.insertCell a b).cell? x = if x = a then some b else m.cell? x := by
  induction m with
  | nil => simp [Memory.insertCell, Memory.cell?, eq_comm]
  | cons e m ih =>
    obtain ⟨j, c⟩ := e
    simp only [Memory.insertCell]
    split
    · simp [Memory.cell?, eq_comm]
    · split
      · subst_vars; by_cases hx : x = j <;> simp [Memory.cell?, hx, eq_comm]
      · by_cases hx : j = x
        · subst hx; simp [Memory.cell?, Ne.symm ‹_›]
        · simp [Memory.cell?, hx, ih]

theorem Memory.cell?_putByte (m : Memory) (size a : Nat) (b : Byte) (x : Nat) :
    (m.putByte size a b).cell? x = if x = a ∧ a < size then some b else m.cell? x := by
  unfold Memory.putByte
  by_cases ha : a < size <;> simp only [ha, if_true, if_false, and_true, and_false]
  exact Memory.cell?_insertCell m a b x

theorem Memory.cell?_putBytes (m : Memory) (size a : Nat) (bs : Bytes) (x : Nat) :
    (m.putBytes size a bs).cell? x =
      if a ≤ x ∧ x < a + bs.length ∧ x < size then bs[x - a]? else m.cell? x := by
  induction bs generalizing m a with
  | nil => simp only [Memory.putBytes, List.length_nil]; rw [if_neg (by omega)]
  | cons b bs ih =>
    simp only [Memory.putBytes, ih, Memory.cell?_putByte, List.length_cons]
    by_cases hx : x = a
    · subst hx
      rw [if_neg (by omega)]
      by_cases hb : x < size <;> simp [hb]
    · by_cases hin : a + 1 ≤ x ∧ x < a + 1 + bs.length ∧ x < size
      · rw [if_pos hin, if_pos (by omega), show x - a = (x - (a + 1)) + 1 by omega]
        simp
      · rw [if_neg hin, if_neg (by tauto), if_neg (by omega)]

/-- Every byte of BUF after `MemWrite` (R65). -/
theorem State.byteAt_memWrite (s : State) (cfg : Config) (a : Nat) (bs : Bytes) (x : Nat) :
    (s.memWrite cfg a bs).byteAt x =
      if a ≤ x ∧ x < a + bs.length ∧ x < cfg.bufSize then bs.getD (x - a) 0 else s.byteAt x := by
  unfold State.byteAt
  simp only [State.memWrite_buf, State.memWrite_epoch, Memory.cell?_putBytes]
  split
  · rename_i h
    have hlt : x - a < bs.length := by omega
    simp [hlt]
  · rfl

theorem State.byteAt_memWrite_outside (s : State) {cfg : Config} {a : Nat} {bs : Bytes} {x : Nat}
    (h : x < a ∨ a + bs.length ≤ x) : (s.memWrite cfg a bs).byteAt x = s.byteAt x := by
  rw [State.byteAt_memWrite, if_neg (by omega)]

@[simp] theorem State.memRead_length (s : State) (a n : Nat) : (s.memRead a n).length = n := by
  simp [State.memRead]

theorem State.memRead_getD (s : State) (a n i : Nat) (hi : i < n) :
    (s.memRead a n).getD i 0 = s.byteAt (a + i) := by
  simp [State.memRead, hi]

/-- `MemRead` of the range just written (R64, R65). -/
theorem State.memRead_memWrite (s : State) (cfg : Config) (a : Nat) (bs : Bytes) (h : a + bs.length ≤ cfg.bufSize) :
    (s.memWrite cfg a bs).memRead a bs.length = bs := by
  refine List.ext_getElem (by simp) fun i h1 h2 => ?_
  simp only [State.memRead, List.getElem_map, List.getElem_range, State.byteAt_memWrite]
  rw [if_pos (by omega)]
  simp [h2]

/-- The same, with the length named on its own. -/
theorem State.memRead_memWrite_same (s : State) {cfg : Config} {a n : Nat} {bs : Bytes} (hn : bs.length = n)
    (h : a + n ≤ cfg.bufSize) : (s.memWrite cfg a bs).memRead a n = bs := by
  subst hn
  exact s.memRead_memWrite cfg a bs h

/-- `MemRead` of a range the write does not touch. -/
theorem State.memRead_memWrite_disjoint (s : State) {cfg : Config} {a n a' : Nat} {bs : Bytes}
    (h : a + n ≤ a' ∨ a' + bs.length ≤ a) : (s.memWrite cfg a' bs).memRead a n = s.memRead a n := by
  refine List.map_congr_left fun i hi => ?_
  have := List.mem_range.1 hi
  exact State.byteAt_memWrite_outside s (by omega)

/-- A byte reads the same in two states that agree on BUF and on its free values. -/
theorem State.byteAt_congr {s t : State} (hb : t.buf = s.buf) (he : t.epoch = s.epoch) (x : Nat) :
    t.byteAt x = s.byteAt x := by
  simp [State.byteAt, hb, he]

theorem State.memRead_congr {s t : State} (hb : t.buf = s.buf) (he : t.epoch = s.epoch) (a n : Nat) :
    t.memRead a n = s.memRead a n := by
  simp [State.memRead, State.byteAt_congr hb he]

end Sys2Proof.Machine
end

