-- ==== Sys2Proof/Laws/Ops.lean ====
section
/-!
SUPPORT. What the shared operations can do: checks before effects, results that may raise, context slots.
-/

namespace Sys2Proof.Machine

/-! ### Checks before effects -/

/-- Everything a guarded effect can do: the first failing check is taken as a fault, or the effect happens. -/
theorem State.guarded_cases (s : State) (checks : List (Bool × FaultCode)) (effect : State → State) :
    (∃ f, firstFault checks = some f ∧ s.guarded checks effect = s.faultEntry f) ∨
    (firstFault checks = none ∧ s.guarded checks effect = effect s) := by
  unfold State.guarded
  cases h : firstFault checks with
  | none => exact .inr ⟨rfl, rfl⟩
  | some f => exact .inl ⟨f, rfl, rfl⟩

/-- No check fails exactly when every condition is false. -/
theorem firstFault_eq_none (checks : List (Bool × FaultCode)) :
    firstFault checks = none ↔ ∀ c ∈ checks, c.1 = false := by
  induction checks with
  | nil => simp [firstFault]
  | cons c rest ih =>
    obtain ⟨b, f⟩ := c
    cases b <;> simp [firstFault, ih]

@[simp] theorem State.guarded_nil (s : State) (effect : State → State) : s.guarded [] effect = effect s := rfl

@[simp] theorem State.guarded_true (s : State) (f : FaultCode) (rest : List (Bool × FaultCode))
    (effect : State → State) : s.guarded ((true, f) :: rest) effect = s.faultEntry f := rfl

@[simp] theorem State.guarded_false (s : State) (f : FaultCode) (rest : List (Bool × FaultCode))
    (effect : State → State) : s.guarded ((false, f) :: rest) effect = s.guarded rest effect := rfl

/-- A guarded effect none of whose checks fails. -/
theorem State.guarded_of_all_false {s : State} {checks : List (Bool × FaultCode)} {effect : State → State}
    (h : ∀ c ∈ checks, c.1 = false) : s.guarded checks effect = effect s := by
  unfold State.guarded
  rw [(firstFault_eq_none checks).2 h]

/-- Everything a result that may raise can do. -/
theorem State.orFault_cases {α : Type} (s : State) (r : Except FaultCode α) (effect : α → State) :
    (∃ f, r = .error f ∧ s.orFault r effect = s.faultEntry f) ∨
    (∃ x, r = .ok x ∧ s.orFault r effect = effect x) := by
  cases r with
  | error f => exact .inl ⟨f, rfl, rfl⟩
  | ok x => exact .inr ⟨x, rfl, rfl⟩

@[simp] theorem State.orFault_ok {α : Type} (s : State) (x : α) (effect : α → State) :
    s.orFault (.ok x) effect = effect x := rfl

@[simp] theorem State.orFault_error {α : Type} (s : State) (f : FaultCode) (effect : α → State) :
    s.orFault (.error f) effect = s.faultEntry f := rfl

theorem inRange_iff (cfg : Config) (a : Word) (n : Nat) : inRange cfg a n = true ↔ a.toNat + n ≤ cfg.bufSize := by
  simp [inRange]

theorem slotExists_iff (cfg : Config) (k : BitVec 4) : slotExists cfg k = true ↔ k.toNat < cfg.nctx := by
  simp [slotExists]

/-! ### Context slots -/

@[simp] theorem State.slot_setSlot_same (s : State) (k : BitVec 4) (c : Ctx) : (s.setSlot k c).slot k = c := by
  simp [State.slot, State.setSlot]

theorem State.slot_setSlot_other (s : State) {j k : BitVec 4} (h : j ≠ k) (c : Ctx) :
    (s.setSlot k c).slot j = s.slot j := by
  have hj : k.toNat ≠ j.toNat := fun e => h (BitVec.eq_of_toNat_eq e.symm)
  simp only [State.slot, State.setSlot]
  exact Vector.getElem_set_ne _ _ hj

/-! ### Slots and bytes through updates that leave them alone -/

@[simp] theorem State.slot_complete (s : State) (k : BitVec 4) :
    s.complete.slot k = s.slot k := rfl
@[simp] theorem State.byteAt_complete (s : State) (x : Nat) :
    s.complete.byteAt x = s.byteAt x := rfl
@[simp] theorem State.memRead_complete (s : State) (x n : Nat) :
    s.complete.memRead x n = s.memRead x n := rfl

@[simp] theorem State.slot_setResult (s : State) (v : Word) (k : BitVec 4) :
    (s.setResult v).slot k = s.slot k := rfl
@[simp] theorem State.byteAt_setResult (s : State) (v : Word) (x : Nat) :
    (s.setResult v).byteAt x = s.byteAt x := rfl
@[simp] theorem State.memRead_setResult (s : State) (v : Word) (x n : Nat) :
    (s.setResult v).memRead x n = s.memRead x n := rfl

@[simp] theorem State.slot_memWrite (s : State) (cfg : Config) (a : Nat) (bs : Bytes) (k : BitVec 4) :
    (s.memWrite cfg a bs).slot k = s.slot k := rfl

@[simp] theorem State.slot_setMidstate (s : State) (m : Mid) (k : BitVec 4) :
    (s.setMidstate m).slot k = s.slot k := rfl
@[simp] theorem State.byteAt_setMidstate (s : State) (m : Mid) (x : Nat) :
    (s.setMidstate m).byteAt x = s.byteAt x := rfl
@[simp] theorem State.memRead_setMidstate (s : State) (m : Mid) (x n : Nat) :
    (s.setMidstate m).memRead x n = s.memRead x n := rfl

@[simp] theorem State.slot_setSrch (s : State) (r : Srch) (k : BitVec 4) :
    (s.setSrch r).slot k = s.slot k := rfl
@[simp] theorem State.byteAt_setSrch (s : State) (r : Srch) (x : Nat) :
    (s.setSrch r).byteAt x = s.byteAt x := rfl
@[simp] theorem State.memRead_setSrch (s : State) (r : Srch) (x n : Nat) :
    (s.setSrch r).memRead x n = s.memRead x n := rfl

@[simp] theorem State.slot_endSearch (s : State) (b : Bool) (k : BitVec 4) :
    (s.endSearch b).slot k = s.slot k := rfl
@[simp] theorem State.byteAt_endSearch (s : State) (b : Bool) (x : Nat) :
    (s.endSearch b).byteAt x = s.byteAt x := rfl
@[simp] theorem State.memRead_endSearch (s : State) (b : Bool) (x n : Nat) :
    (s.endSearch b).memRead x n = s.memRead x n := rfl

@[simp] theorem State.slot_issue (s : State) (w : Word) (k : BitVec 4) :
    (s.issue w).slot k = s.slot k := rfl
@[simp] theorem State.byteAt_issue (s : State) (w : Word) (x : Nat) :
    (s.issue w).byteAt x = s.byteAt x := rfl
@[simp] theorem State.memRead_issue (s : State) (w : Word) (x n : Nat) :
    (s.issue w).memRead x n = s.memRead x n := rfl

@[simp] theorem State.slot_observe (s : State) (v : Word) (k : BitVec 4) :
    (s.observe v).slot k = s.slot k := rfl
@[simp] theorem State.byteAt_observe (s : State) (v : Word) (x : Nat) :
    (s.observe v).byteAt x = s.byteAt x := rfl
@[simp] theorem State.memRead_observe (s : State) (v : Word) (x n : Nat) :
    (s.observe v).memRead x n = s.memRead x n := rfl

@[simp] theorem State.slot_dropTurn (s : State) (k : BitVec 4) :
    s.dropTurn.slot k = s.slot k := rfl
@[simp] theorem State.byteAt_dropTurn (s : State) (x : Nat) :
    s.dropTurn.byteAt x = s.byteAt x := rfl
@[simp] theorem State.memRead_dropTurn (s : State) (x n : Nat) :
    s.dropTurn.memRead x n = s.memRead x n := rfl

@[simp] theorem State.slot_setCancel (s : State) (v : Word) (k : BitVec 4) :
    (s.setCancel v).slot k = s.slot k := rfl
@[simp] theorem State.byteAt_setCancel (s : State) (v : Word) (x : Nat) :
    (s.setCancel v).byteAt x = s.byteAt x := rfl
@[simp] theorem State.memRead_setCancel (s : State) (v : Word) (x n : Nat) :
    (s.setCancel v).memRead x n = s.memRead x n := rfl

@[simp] theorem State.slot_setArg (s : State) (i : Fin 4) (v : Word) (k : BitVec 4) :
    (s.setArg i v).slot k = s.slot k := by
  fin_cases i <;> rfl
@[simp] theorem State.byteAt_setArg (s : State) (i : Fin 4) (v : Word) (x : Nat) :
    (s.setArg i v).byteAt x = s.byteAt x := by
  fin_cases i <;> rfl
@[simp] theorem State.memRead_setArg (s : State) (i : Fin 4) (v : Word) (x n : Nat) :
    (s.setArg i v).memRead x n = s.memRead x n := by
  fin_cases i <;> rfl

@[simp] theorem State.byteAt_setSlot (s : State) (j : BitVec 4) (c : Ctx) (x : Nat) :
    (s.setSlot j c).byteAt x = s.byteAt x := rfl
@[simp] theorem State.memRead_setSlot (s : State) (j : BitVec 4) (c : Ctx) (x n : Nat) :
    (s.setSlot j c).memRead x n = s.memRead x n := rfl

/-! ### ARG registers -/

theorem State.arg_setArg (s : State) (i j : Fin 4) (v : Word) :
    (s.setArg i v).arg j = if j = i then v else s.arg j := by
  fin_cases i <;> fin_cases j <;> rfl

/-! ### Fault entry -/

theorem faultNumber_listed (f : FaultCode) : 1 ≤ (faultNumber f).toNat ∧ (faultNumber f).toNat ≤ 9 := by
  cases f <;> decide

/-- Fault entry never touches BUF (R223). -/
@[simp] theorem State.byteAt_faultEntry (s : State) (f : FaultCode) (x : Nat) :
    (s.faultEntry f).byteAt x = s.byteAt x := rfl

@[simp] theorem State.slot_faultEntry (s : State) (f : FaultCode) (k : BitVec 4) :
    (s.faultEntry f).slot k = s.slot k := rfl

end Sys2Proof.Machine
end

