-- ==== Sys2Proof/Laws/Composer.lean ====
section
/-!
SUPPORT. The chip's configuration is well formed, no well-formed configuration is left out, and what follows for the
composers: no selector of the chip's table is bad, and the midstate law.
-/

namespace Sys2Proof.Machine

/-! ### Well-formed configurations -/

theorem wellFormedPart_wellFormed (cfg : Config) : cfg.wellFormedPart.WellFormed where
  nctx := by simp only [Config.wellFormedPart]; omega
  bufSize := by simp only [Config.wellFormedPart]; omega
  nblocksW := by simp only [Config.wellFormedPart]; omega
  midPrefix := by simp only [Config.wellFormedPart]; omega
  hcBase := by simp only [Config.wellFormedPart]; omega
  nInst := by simp only [Config.wellFormedPart]; omega
  table := by
    unfold Config.tableLength Config.wellFormedPart
    cases cfg.permTable <;> simp
    omega
  nibbles := fun w hw => by
    unfold Config.wellFormedPart at hw
    cases ht : cfg.permTable with
    | nil => rw [ht] at hw; simp at hw; simp [hw]
    | cons x xs =>
      rw [ht] at hw
      simp only [List.isEmpty_cons, Bool.false_eq_true, if_false, List.mem_map] at hw
      obtain ⟨v, -, rfl⟩ := hw
      rw [BitVec.and_assoc]
      simp
  midstateLaw := fun h hh => by simp [Config.wellFormedPart, hh]

/-- The configuration of the chip is well formed (R8). -/
theorem chip_wellFormed : Config.chip.WellFormed := wellFormedPart_wellFormed Config.raw.decided

/-! The decided parameters on the chip (R7). -/

@[simp] theorem chip_nctx : Config.chip.nctx = 4 := rfl
@[simp] theorem chip_bufSize : Config.chip.bufSize = 4096 := rfl
@[simp] theorem chip_nblocksW : Config.chip.nblocksW = 32 := rfl
@[simp] theorem chip_midPrefix : Config.chip.midPrefix = 76 := rfl
@[simp] theorem chip_indexArith : Config.chip.indexArith = .u32wrap := rfl

theorem and_mask_eq {w : Word} (h : w &&& 0x88888888#32 = 0#32) : w &&& 0x77777777#32 = w := by
  have hsplit : w = (w &&& 0x77777777#32) ||| (w &&& 0x88888888#32) := by
    rw [← BitVec.and_or_distrib_left]
    exact (BitVec.and_allOnes (x := w)).symm
  rw [h] at hsplit
  simpa using hsplit.symm

/-- No well-formed configuration is left out: the well-formed part of one is itself. -/
theorem wellFormedPart_eq {cfg : Config} (h : cfg.WellFormed) : cfg.wellFormedPart = cfg := by
  have htab : (if cfg.permTable.isEmpty then [0#32]
      else (cfg.permTable.take (2 ^ 32 - 1)).map (· &&& 0x77777777#32)) = cfg.permTable := by
    have hlen := h.table
    unfold Config.tableLength at hlen
    have hne : cfg.permTable.isEmpty = false := by
      cases ht : cfg.permTable with
      | nil => simp [ht] at hlen
      | cons x xs => rfl
    rw [hne, List.take_of_length_le (by omega)]
    exact List.map_congr_left (g := id) (fun w hw => and_mask_eq (h.nibbles w hw)) |>.trans (by simp)
  have hpre : min cfg.midPrefix 76 = cfg.midPrefix := Nat.min_eq_left h.midPrefix
  have hprim : (fun x : Bytes =>
      if x.length = 80 then cfg.midResume (cfg.midAbsorb (x.take cfg.midPrefix)) (x.drop cfg.midPrefix)
      else cfg.primB1 x) = cfg.primB1 := by
    funext x
    split
    · exact h.midstateLaw x ‹_›
    · rfl
  have h1 : max 1 (min cfg.nctx 16) = cfg.nctx := by have := h.nctx; omega
  have h2 : max 256 (min (cfg.bufSize / 4 * 4) 65536) = cfg.bufSize := by have := h.bufSize; omega
  have h3 : max 1 (min cfg.nblocksW 32) = cfg.nblocksW := by have := h.nblocksW; omega
  have h4 : cfg.hcBase / 0x1000 * 0x1000 = cfg.hcBase := by have := h.hcBase; omega
  have h5 : max 1 cfg.nInst = cfg.nInst := by have := h.nInst; omega
  unfold Config.wellFormedPart
  rw [htab, hpre, hprim, h1, h2, h3, h4, h5]

/-- A well-formed configuration with the decided values is one the chip may have: nothing but the values of the OPEN parameters
tells them apart. -/
theorem decided_wellFormedPart_eq {cfg : Config} (h : cfg.WellFormed) (hd : cfg.decided = cfg) :
    cfg.decided.wellFormedPart = cfg := by rw [hd, wellFormedPart_eq h]

/-- The midstate law on the chip (R184). -/
theorem chip_midstate_law {h : Bytes} (hh : h.length = 80) :
    Config.chip.midResume (Config.chip.midAbsorb (h.take 76)) (h.drop 76) = Config.chip.primB1 h :=
  chip_wellFormed.midstateLaw h hh

/-! ### Selectors -/

theorem permIndexOf_lt {cfg : Config} (h : 1 ≤ cfg.tableLength) (t : Word) : permIndexOf cfg t < cfg.tableLength := by
  unfold permIndexOf
  split
  · exact Nat.mod_lt _ h
  · have h1 := Int.emod_nonneg ((t.toNat : Int) - (cfg.baseTimestamp.toNat : Int))
      (show (cfg.tableLength : Int) ≠ 0 by omega)
    have h2 := Int.emod_lt_of_pos ((t.toNat : Int) - (cfg.baseTimestamp.toNat : Int))
      (show (0 : Int) < cfg.tableLength by omega)
    omega

theorem nibble_lt_eight {w : Word} (h : w &&& 0x88888888#32 = 0#32) {k : Nat} (hk : k < 8) : (nibble w k).toNat < 8 := by
  have hb : w.getLsbD (4 * k + 3) = false := by
    have := congrArg (fun v : Word => v.getLsbD (4 * k + 3)) h
    simp only [BitVec.getLsbD_and, BitVec.getLsbD_zero] at this
    have hm : (0x88888888#32).getLsbD (4 * k + 3) = true := by
      interval_cases k <;> rfl
    rw [hm, Bool.and_true] at this
    exact this
  have hm : (nibble w k).msb = false := by
    rw [BitVec.msb_eq_getLsbD_last]
    simp [nibble, hb]
  have := BitVec.msb_eq_false_iff_two_mul_lt.1 hm
  omega

/-- No selector of a well-formed configuration is bad (R164). -/
theorem selBad_wellFormed {cfg : Config} (h : cfg.WellFormed) (t : Word) : selBad cfg t = false := by
  have hlt := permIndexOf_lt h.table.1 t
  have hw : permWord cfg (permIndexOf cfg t) ∈ cfg.permTable := by
    unfold permWord
    unfold Config.tableLength at hlt
    simp [hlt]
  simp only [selBad, selectors, selectorsOf, selectorsBad, List.any_map, List.any_eq_false, List.mem_range,
    Function.comp_apply, decide_eq_true_eq]
  intro k hk
  have := nibble_lt_eight (h.nibbles _ hw) hk
  omega

@[simp] theorem chip_selBad (t : Word) : selBad Config.chip t = false := selBad_wellFormed chip_wellFormed t

/-- On the chip the chain of Composer A never raises (R166). -/
@[simp] theorem chainA_chip (h : Bytes) (t : Word) :
    chainA Config.chip h t =
      .ok (stagesA Config.chip (selectors Config.chip t) h, BitVec.ofNat 32 (permIndexOf Config.chip t)) := by
  simp [chainA]

/-- On the chip the harness's chain always gives a digest and an index. -/
theorem chain_chip_ok (s : State) (sel : Composer) (mid : Bool) (wr : Word) :
    ∃ d i, s.chain Config.chip sel mid wr = .ok (d, i) := by
  cases sel <;> cases mid <;> simp [State.chain]

/-! ### Lengths -/

@[simp] theorem swapWords_length : ∀ img : Bytes, (swapWords img).length = img.length
  | _ :: _ :: _ :: _ :: rest => by simp [swapWords, swapWords_length rest]
  | [] => rfl
  | [_] => rfl
  | [_, _] => rfl
  | [_, _, _] => rfl

@[simp] theorem norm_length (cfg : Config) (img : Bytes) : (normHeader cfg img).length = img.length := by
  unfold normHeader; split <;> simp

@[simp] theorem headerAt_length (s : State) (cfg : Config) (a : Word) : (s.headerAt cfg a).length = 80 := by
  simp [State.headerAt]

@[simp] theorem first32_length (x : Bytes64) : (first32 x).length = 32 := by simp [first32]

@[simp] theorem stagesA_length (cfg : Config) (sels : List (BitVec 4)) (h : Bytes) :
    (stagesA cfg sels h).length = 32 := first32_length _

@[simp] theorem chainB_length (cfg : Config) (h : Bytes) : (chainB cfg h).length = 32 := first32_length _

@[simp] theorem chainBMid_length (cfg : Config) (m : Mid) (h : Bytes) : (chainBMid cfg m h).length = 32 :=
  first32_length _

@[simp] theorem be32_length (w : Word) : (be32 w).length = 4 := rfl

@[simp] theorem le32_length (w : Word) : (le32 w).length = 4 := rfl

@[simp] theorem nonceBytes_length (cfg : Config) (n : Word) : (nonceBytes cfg n).length = 4 := by
  unfold nonceBytes; split <;> rfl

/-- Every digest of the harness's chain is 32 bytes. -/
theorem chain_digest_length {s : State} {cfg : Config} {sel : Composer} {mid : Bool} {wr : Word} {d : Bytes} {i : Word}
    (h : s.chain cfg sel mid wr = .ok (d, i)) : d.length = 32 := by
  cases sel
  · simp only [State.chain, chainA] at h
    split at h
    · cases h
    · cases h; simp
  · cases mid <;> (cases h; simp)

end Sys2Proof.Machine
end

