-- ==== Sys2Proof/Laws/Commands.lean ====
section
/-!
SUPPORT. What each command can do, once: it takes a fault, or its effect happens on the conditions its rule names. Proofs
cite these instead of unfolding a meaning.
-/

namespace Sys2Proof.Machine

/-- A range check that does not fail is a range in range. -/
theorem rangeOk {cfg : Config} {a : Word} {n : Nat} (h : (!inRange cfg a n) = false) : inRange cfg a n = true := by
  simpa using h

theorem dgInit_cases (cfg : Config) (k : BitVec 4) (s : State) :
    (∃ f, dgInit cfg k s = s.faultEntry f) ∨
    (slotExists cfg k = true ∧ dgInit cfg k s = (s.setSlot k Ctx.init).complete) := by
  obtain ⟨f, -, e⟩ | ⟨hc, e⟩ := s.guarded_cases [slotCheck cfg k] fun s => (s.setSlot k Ctx.init).complete
  · exact .inl ⟨f, e⟩
  · rw [firstFault_eq_none] at hc
    exact .inr ⟨by simpa [slotCheck] using hc, e⟩

theorem dgAbsorb_cases (cfg : Config) (k : BitVec 4) (s : State) :
    (∃ f, dgAbsorb cfg k s = s.faultEntry f) ∨
    (slotExists cfg k = true ∧ (s.slot k).st ≠ .uninit ∧ inRange cfg s.arg0 s.arg1.toNat = true ∧
      dgAbsorb cfg k s = (s.setSlot k ((s.slot k).absorb cfg (s.memRead s.arg0.toNat s.arg1.toNat))).complete) := by
  obtain ⟨f, -, e⟩ | ⟨hc, e⟩ := s.guarded_cases _
    fun s => (s.setSlot k ((s.slot k).absorb cfg (s.memRead s.arg0.toNat s.arg1.toNat))).complete
  · exact .inl ⟨f, e⟩
  · rw [firstFault_eq_none] at hc
    simp only [List.mem_cons, List.not_mem_nil, or_false, forall_eq_or_imp, forall_eq, slotCheck] at hc
    exact .inr ⟨by simpa using hc.1, by simpa using hc.2.1, rangeOk hc.2.2, e⟩

theorem dgFinal_cases (cfg : Config) (k : BitVec 4) (s : State) :
    (∃ f, dgFinal cfg k s = s.faultEntry f) ∨
    (slotExists cfg k = true ∧ (s.slot k).st ≠ .uninit ∧ inRange cfg s.arg0 32 = true ∧
      dgFinal cfg k s = ((s.memWrite cfg s.arg0.toNat (s.slot k).finalDigest).setSlot k Ctx.init).complete) := by
  obtain ⟨f, -, e⟩ | ⟨hc, e⟩ := s.guarded_cases _
    fun s => ((s.memWrite cfg s.arg0.toNat (s.slot k).finalDigest).setSlot k Ctx.init).complete
  · exact .inl ⟨f, e⟩
  · rw [firstFault_eq_none] at hc
    simp only [List.mem_cons, List.not_mem_nil, or_false, forall_eq_or_imp, forall_eq, slotCheck] at hc
    exact .inr ⟨by simpa using hc.1, by simpa using hc.2.1, rangeOk hc.2.2, e⟩

theorem dgDigest_cases (cfg : Config) (s : State) :
    (∃ f, dgDigest cfg s = s.faultEntry f) ∨
    (inRange cfg s.arg0 s.arg1.toNat = true ∧ inRange cfg s.arg2 32 = true ∧
      dgDigest cfg s =
        (s.memWrite cfg s.arg2.toNat (digestOf cfg (s.memRead s.arg0.toNat s.arg1.toNat))).complete) := by
  obtain ⟨f, -, e⟩ | ⟨hc, e⟩ := s.guarded_cases _
    fun s => (s.memWrite cfg s.arg2.toNat (digestOf cfg (s.memRead s.arg0.toNat s.arg1.toNat))).complete
  · exact .inl ⟨f, e⟩
  · rw [firstFault_eq_none] at hc
    simp only [List.mem_cons, List.not_mem_nil, or_false, forall_eq_or_imp, forall_eq] at hc
    exact .inr ⟨rangeOk hc.1, rangeOk hc.2, e⟩

theorem permRead_cases (cfg : Config) (s : State) :
    (∃ f, permRead cfg s = s.faultEntry f) ∨
    (s.arg0.toNat < cfg.tableLength ∧ permRead cfg s = (s.setResult (permWord cfg s.arg0.toNat)).complete) := by
  obtain ⟨f, -, e⟩ | ⟨hc, e⟩ := s.guarded_cases _ fun s => (s.setResult (permWord cfg s.arg0.toNat)).complete
  · exact .inl ⟨f, e⟩
  · rw [firstFault_eq_none] at hc
    exact .inr ⟨by simpa using hc, e⟩

theorem composeA_cases (cfg : Config) (s : State) :
    (∃ f, composeA cfg s = s.faultEntry f) ∨
    (∃ d i, inRange cfg s.arg0 80 = true ∧ inRange cfg s.arg2 32 = true ∧
      chainA cfg (s.headerAt cfg s.arg0) s.arg1 = .ok (d, i) ∧ composeA cfg s = s.composed cfg d i) := by
  obtain ⟨f, -, e⟩ | ⟨hc, e⟩ := s.guarded_cases
    (composeRanges cfg s ++ [(selBad cfg s.arg1, .badSelector)])
    fun s => s.orFault (chainA cfg (s.headerAt cfg s.arg0) s.arg1) fun r => s.composed cfg r.1 r.2
  · exact .inl ⟨f, e⟩
  · rw [firstFault_eq_none] at hc
    simp only [composeRanges, List.cons_append, List.nil_append, List.mem_cons, List.not_mem_nil, or_false,
      forall_eq_or_imp, forall_eq] at hc
    obtain ⟨f, -, e'⟩ | ⟨x, hx, e'⟩ := s.orFault_cases (chainA cfg (s.headerAt cfg s.arg0) s.arg1)
      fun r => s.composed cfg r.1 r.2
    · exact .inl ⟨f, e.trans e'⟩
    · exact .inr ⟨x.1, x.2, rangeOk hc.1, rangeOk hc.2.1, hx, e.trans e'⟩

theorem composeB_cases (cfg : Config) (s : State) :
    (∃ f, composeB cfg s = s.faultEntry f) ∨
    (inRange cfg s.arg0 80 = true ∧ inRange cfg s.arg2 32 = true ∧
      composeB cfg s = s.composed cfg (chainB cfg (s.headerAt cfg s.arg0)) 0) := by
  obtain ⟨f, -, e⟩ | ⟨hc, e⟩ := s.guarded_cases (composeRanges cfg s)
    fun s => s.composed cfg (chainB cfg (s.headerAt cfg s.arg0)) 0
  · exact .inl ⟨f, e⟩
  · rw [firstFault_eq_none] at hc
    simp only [composeRanges, List.mem_cons, List.not_mem_nil, or_false, forall_eq_or_imp, forall_eq] at hc
    exact .inr ⟨rangeOk hc.1, rangeOk hc.2, e⟩

theorem composeBMid_cases (cfg : Config) (s : State) :
    (∃ f, composeBMid cfg s = s.faultEntry f) ∨
    (s.midValid = true ∧ inRange cfg s.arg0 80 = true ∧ inRange cfg s.arg2 32 = true ∧
      composeBMid cfg s = s.composed cfg (chainBMid cfg s.midS (s.headerAt cfg s.arg0)) 0) := by
  obtain ⟨f, -, e⟩ | ⟨hc, e⟩ := s.guarded_cases ((!s.midValid, .midInvalid) :: composeRanges cfg s)
    fun s => s.composed cfg (chainBMid cfg s.midS (s.headerAt cfg s.arg0)) 0
  · exact .inl ⟨f, e⟩
  · rw [firstFault_eq_none] at hc
    simp only [composeRanges, List.mem_cons, List.not_mem_nil, or_false, forall_eq_or_imp, forall_eq] at hc
    exact .inr ⟨by simpa using hc.1, rangeOk hc.2.1, rangeOk hc.2.2, e⟩

theorem midstateB_cases (cfg : Config) (s : State) :
    (∃ f, midstateB cfg s = s.faultEntry f) ∨
    (inRange cfg s.arg0 80 = true ∧
      midstateB cfg s = (s.setMidstate (midstateOf cfg (s.headerAt cfg s.arg0))).complete) := by
  obtain ⟨f, -, e⟩ | ⟨hc, e⟩ := s.guarded_cases [(!inRange cfg s.arg0 80, .bufRange)]
    fun s => (s.setMidstate (midstateOf cfg (s.headerAt cfg s.arg0))).complete
  · exact .inl ⟨f, e⟩
  · rw [firstFault_eq_none] at hc
    exact .inr ⟨by simpa using hc, e⟩

/-- The conditions under which no check of TEST or of SEARCH's start step fails. -/
theorem harnessChecks_none {cfg : Config} {s : State} {sel : Composer} {mid : Bool}
    (h : firstFault (harnessChecks cfg s sel mid) = none) :
    (mid = true → s.midValid = true) ∧ inRange cfg s.arg0 112 = true ∧ inRange cfg s.arg1 32 = true := by
  rw [firstFault_eq_none] at h
  simp only [harnessChecks, recordChecks, selectorCheck, List.cons_append, List.nil_append, List.mem_cons,
    List.not_mem_nil, or_false, forall_eq_or_imp, forall_eq] at h
  exact ⟨fun hm => by simpa [hm] using h.1, rangeOk h.2.1, rangeOk h.2.2.1⟩

theorem test_cases (cfg : Config) (sel : Composer) (mid : Bool) (s : State) :
    (∃ f, test cfg sel mid s = s.faultEntry f) ∨
    (∃ d i, (mid = true → s.midValid = true) ∧ inRange cfg s.arg0 112 = true ∧ inRange cfg s.arg1 32 = true ∧
      (s.setNonce cfg s.arg0 s.arg2).chain cfg sel mid s.arg0 = .ok (d, i) ∧
      test cfg sel mid s = (((s.setNonce cfg s.arg0 s.arg2).setDigestSlot cfg s.arg0 d).setResult
        (classify (digestMsw cfg d) (s.targetMsw s.arg1))).complete) := by
  obtain ⟨f, -, e⟩ | ⟨hc, e⟩ := s.guarded_cases (harnessChecks cfg s sel mid) fun s =>
    s.orFault ((s.setNonce cfg s.arg0 s.arg2).chain cfg sel mid s.arg0) fun r =>
      (((s.setNonce cfg s.arg0 s.arg2).setDigestSlot cfg s.arg0 r.1).setResult
        (classify (digestMsw cfg r.1) (s.targetMsw s.arg1))).complete
  · exact .inl ⟨f, e⟩
  · obtain ⟨h1, h2, h3⟩ := harnessChecks_none hc
    obtain ⟨f, -, e'⟩ | ⟨x, hx, e'⟩ := s.orFault_cases ((s.setNonce cfg s.arg0 s.arg2).chain cfg sel mid s.arg0)
      fun r => (((s.setNonce cfg s.arg0 s.arg2).setDigestSlot cfg s.arg0 r.1).setResult
        (classify (digestMsw cfg r.1) (s.targetMsw s.arg1))).complete
    · exact .inl ⟨f, e.trans e'⟩
    · exact .inr ⟨x.1, x.2, h1, h2, h3, hx, e.trans e'⟩

theorem searchStart_cases (cfg : Config) (sel : Composer) (mid : Bool) (s : State) :
    (∃ f, searchStart cfg sel mid s = s.faultEntry f) ∨
    ((mid = true → s.midValid = true) ∧ inRange cfg s.arg0 112 = true ∧ inRange cfg s.arg1 32 = true ∧
      searchStart cfg sel mid s = s.setSrch
        { n := s.arg2, max := s.arg3, tmsw := s.targetMsw s.arg1, wr := s.arg0, sel := sel, mid := mid,
          started := true }) := by
  obtain ⟨f, -, e⟩ | ⟨hc, e⟩ := s.guarded_cases (harnessChecks cfg s sel mid) fun s => s.setSrch
    { n := s.arg2, max := s.arg3, tmsw := s.targetMsw s.arg1, wr := s.arg0, sel := sel, mid := mid, started := true }
  · exact .inl ⟨f, e⟩
  · obtain ⟨h1, h2, h3⟩ := harnessChecks_none hc
    exact .inr ⟨h1, h2, h3, e⟩

/-- What an attempt can do after its digest: end the search found, end it not found, or go on. -/
theorem afterAttempt_cases (s : State) (cfg : Config) (d : Bytes) :
    (digestMsw cfg d ≤ s.srch.tmsw ∧ s.afterAttempt cfg d = s.finishSearch cfg true d) ∨
    (s.srch.tmsw < digestMsw cfg d ∧ (s.srch.max ≤ s.srch.n ∨ s.cancel = true) ∧
      s.afterAttempt cfg d = s.finishSearch cfg false d) ∨
    (s.srch.tmsw < digestMsw cfg d ∧ s.srch.n < s.srch.max ∧ s.cancel = false ∧ s.afterAttempt cfg d = s) := by
  unfold State.afterAttempt
  by_cases h1 : digestMsw cfg d ≤ s.srch.tmsw
  · exact .inl ⟨h1, if_pos h1⟩
  · have h1' : s.srch.tmsw < digestMsw cfg d := BitVec.not_le.1 h1
    by_cases h2 : s.srch.max ≤ s.srch.n ∨ s.cancel = true
    · exact .inr (.inl ⟨h1', h2, by rw [if_neg h1, if_pos h2]⟩)
    · rw [not_or] at h2
      exact .inr (.inr ⟨h1', BitVec.not_le.1 h2.1, by simpa using h2.2, by
        rw [if_neg h1, if_neg (by simpa using h2)]⟩)

theorem searchAttempt_cases (cfg : Config) (s : State) :
    (∃ f, searchAttempt cfg s = s.faultEntry f) ∨
    (∃ d i, (s.nextNonce cfg).chain cfg s.srch.sel s.srch.mid s.srch.wr = .ok (d, i) ∧
      searchAttempt cfg s = (s.nextNonce cfg).afterAttempt cfg d) := by
  obtain ⟨f, -, e⟩ | ⟨x, hx, e⟩ := s.orFault_cases ((s.nextNonce cfg).chain cfg s.srch.sel s.srch.mid s.srch.wr)
    fun r => (s.nextNonce cfg).afterAttempt cfg r.1
  · exact .inl ⟨f, e⟩
  · exact .inr ⟨x.1, x.2, hx, e⟩

/-- On the chip an attempt never faults (R203). -/
theorem searchAttempt_chip (s : State) :
    ∃ d i, (s.nextNonce Config.chip).chain Config.chip s.srch.sel s.srch.mid s.srch.wr = .ok (d, i) ∧
      searchAttempt Config.chip s = (s.nextNonce Config.chip).afterAttempt Config.chip d := by
  obtain ⟨d, i, h⟩ := chain_chip_ok (s.nextNonce Config.chip) s.srch.sel s.srch.mid s.srch.wr
  exact ⟨d, i, h, by simp [searchAttempt, h]⟩

theorem regen_cases (cfg : Config) (sel : Composer) (mid : Bool) (s : State) :
    (∃ f, regen cfg sel mid s = s.faultEntry f) ∨
    (∃ d i, (mid = true → s.midValid = true) ∧ inRange cfg s.arg0 112 = true ∧
      s.chain cfg sel mid s.arg0 = .ok (d, i) ∧
      regen cfg sel mid s = ((s.setDigestSlot cfg s.arg0 d).setResult i).complete) := by
  obtain ⟨f, -, e⟩ | ⟨hc, e⟩ := s.guarded_cases (recordChecks cfg s mid ++ selectorCheck cfg s sel) fun s =>
    s.orFault (s.chain cfg sel mid s.arg0) fun r => ((s.setDigestSlot cfg s.arg0 r.1).setResult r.2).complete
  · exact .inl ⟨f, e⟩
  · rw [firstFault_eq_none] at hc
    simp only [recordChecks, selectorCheck, List.cons_append, List.nil_append, List.mem_cons, List.not_mem_nil,
      or_false, forall_eq_or_imp, forall_eq] at hc
    obtain ⟨f, -, e'⟩ | ⟨x, hx, e'⟩ := s.orFault_cases (s.chain cfg sel mid s.arg0)
      fun r => ((s.setDigestSlot cfg s.arg0 r.1).setResult r.2).complete
    · exact .inl ⟨f, e.trans e'⟩
    · exact .inr ⟨x.1, x.2, fun hm => by simpa [hm] using hc.1, rangeOk hc.2.1, hx, e.trans e'⟩

end Sys2Proof.Machine
end

