-- ==== Sys2Proof/Laws/Digest.lean ====
section
/-!
SUPPORT. Lengths and block contents of the digest primitive.
-/

namespace Sys2Proof.Machine

@[simp] theorem zeros_length (n : Nat) : (zeros n).length = n := by simp [zeros]

@[simp] theorem serializeDigest_length (v : Chaining) : (serializeDigest v).length = 32 := rfl

@[simp] theorem finalDigest_length (c : Ctx) : c.finalDigest.length = 32 := rfl

@[simp] theorem digestOf_length (cfg : Config) (s : Bytes) : (digestOf cfg s).length = 32 := rfl

@[simp] theorem lengthField_length (c : Ctx) : c.lengthField.length = 8 := rfl

/-- What a block holds once `s` is put in within its bounds. -/
theorem patchBlock_toList {blk : Vector Byte 64} {pos : Nat} {s : Bytes} (h : pos + s.length ≤ 64) :
    (patchBlock blk pos s).toList = blk.toList.take pos ++ s ++ blk.toList.drop (pos + s.length) := by
  simp only [patchBlock, Vector.toList_mk]
  exact List.take_of_length_le (by simp; omega)

/-- Putting nothing in leaves a block as it is. -/
@[simp] theorem patchBlock_nil (blk : Vector Byte 64) (pos : Nat) : patchBlock blk pos [] = blk := by
  apply Vector.toList_inj.1
  simp only [patchBlock, Vector.toList_mk, List.append_nil, List.length_nil, Nat.add_zero, List.take_append_drop]
  exact List.take_of_length_le (by simp)

/-- The bytes before and with `s`, of a block that holds it. -/
theorem patchBlock_take {blk : Vector Byte 64} {pos : Nat} {s : Bytes} (h : pos + s.length ≤ 64) :
    (patchBlock blk pos s).toList.take (pos + s.length) = blk.toList.take pos ++ s := by
  rw [patchBlock_toList h, List.take_append_of_le_length (by simp; omega)]
  exact List.take_of_length_le (by simp)

/-! What one compression of ABSORB does to each field. (The new chaining state is taken as a variable first: a kernel
that compares the two records as they stand would run the compression on symbols.) -/

theorem absorbBlock_eq (cfg : Config) (c : Ctx) (m : Bytes) :
    c.absorbBlock cfg m = Ctx.mk c.st (compress c.v m) c.blk c.num (countBlock cfg c.nblocks) := rfl

@[simp] theorem absorbBlock_st (cfg : Config) (c : Ctx) (m : Bytes) : (c.absorbBlock cfg m).st = c.st := by
  have h := absorbBlock_eq cfg c m; generalize compress c.v m = v at h; rw [h]
@[simp] theorem absorbBlock_v (cfg : Config) (c : Ctx) (m : Bytes) : (c.absorbBlock cfg m).v = compress c.v m := by
  have h := absorbBlock_eq cfg c m; generalize compress c.v m = v at h ⊢; rw [h]
@[simp] theorem absorbBlock_blk (cfg : Config) (c : Ctx) (m : Bytes) : (c.absorbBlock cfg m).blk = c.blk := by
  have h := absorbBlock_eq cfg c m; generalize compress c.v m = v at h; rw [h]
@[simp] theorem absorbBlock_num (cfg : Config) (c : Ctx) (m : Bytes) : (c.absorbBlock cfg m).num = c.num := by
  have h := absorbBlock_eq cfg c m; generalize compress c.v m = v at h; rw [h]
@[simp] theorem absorbBlock_nblocks (cfg : Config) (c : Ctx) (m : Bytes) : (c.absorbBlock cfg m).nblocks = countBlock cfg c.nblocks := by
  have h := absorbBlock_eq cfg c m; generalize compress c.v m = v at h; rw [h]

/-- On the chip the counter has all 32 bits of its word. -/
@[simp] theorem countBlock_chip (n : Word) : countBlock Config.chip n = n + 1 := by
  apply BitVec.eq_of_toNat_eq
  simp [countBlock, BitVec.toNat_add]

/-- The loop of ABSORB leaves what does not fill a block, when it runs once per full block. -/
theorem absorbBlocks_rest (cfg : Config) (n : Nat) (c : Ctx) (s : Bytes) : (Ctx.absorbBlocks cfg n c s).2 = s.drop (64 * n) := by
  induction n generalizing c s with
  | zero => rfl
  | succ n ih => simp only [Ctx.absorbBlocks, ih, List.drop_drop]; congr 1; omega

/-- ABSORB never changes whether a slot is initialized. -/
theorem absorbBlocks_st (cfg : Config) (n : Nat) (c : Ctx) (s : Bytes) : (Ctx.absorbBlocks cfg n c s).1.st = c.st := by
  induction n generalizing c s with
  | zero => rfl
  | succ n ih => simp only [Ctx.absorbBlocks, ih, absorbBlock_st]

end Sys2Proof.Machine
end

