-- ==== Sys2Proof/Laws/PerInstr.lean ====
section
/-!
SUPPORT. Laws stated instruction by instruction. `EncodingRow`: a command's word lies in its own row of spec/opcode_table.json,
and only the CTX field of the digest-slot commands is left free by the row.
-/

namespace Sys2Proof.Laws.EncodingRow

/-- The bits that the command's row of the opcode table fixes, and their value there. -/
def row : Instr → Word × Word
  | .dgInit _ => (0xFF0FFFFF, 0x01000000)
  | .dgAbsorb _ => (0xFF0FFFFF, 0x02000000)
  | .dgFinal _ => (0xFF0FFFFF, 0x03000000)
  | .dgDigest => (0xFFFFFFFF, 0x04000000)
  | .permRead => (0xFFFFFFFF, 0x10000000)
  | .composeA => (0xFFFFFFFF, 0x11000000)
  | .composeB => (0xFFFFFFFF, 0x11010000)
  | .composeBMid => (0xFFFFFFFF, 0x11018000)
  | .midstateB => (0xFFFFFFFF, 0x12010000)
  | .testA => (0xFFFFFFFF, 0x20000000)
  | .testB => (0xFFFFFFFF, 0x20010000)
  | .testBMid => (0xFFFFFFFF, 0x20018000)
  | .searchA => (0xFFFFFFFF, 0x21000000)
  | .searchB => (0xFFFFFFFF, 0x21010000)
  | .searchBMid => (0xFFFFFFFF, 0x21018000)
  | .regenA => (0xFFFFFFFF, 0x22000000)
  | .regenB => (0xFFFFFFFF, 0x22010000)
  | .regenBMid => (0xFFFFFFFF, 0x22018000)

/-- The word of a command matches its row, and what the row leaves free is the command's own slot select. -/
def Statement (i : Instr) : Prop :=
  encode i &&& (row i).1 = (row i).2 ∧ encode i = (row i).2 ||| ((ctxField (encode i)).setWidth 32 <<< 20)

theorem dgInit (c : BitVec 4) : Statement (.dgInit c) := by
  unfold Statement
  revert c
  decide

theorem dgAbsorb (c : BitVec 4) : Statement (.dgAbsorb c) := by
  unfold Statement
  revert c
  decide

theorem dgFinal (c : BitVec 4) : Statement (.dgFinal c) := by
  unfold Statement
  revert c
  decide

theorem dgDigest : Statement .dgDigest := by
  unfold Statement
  decide

theorem permRead : Statement .permRead := by
  unfold Statement
  decide

theorem composeA : Statement .composeA := by
  unfold Statement
  decide

theorem composeB : Statement .composeB := by
  unfold Statement
  decide

theorem composeBMid : Statement .composeBMid := by
  unfold Statement
  decide

theorem midstateB : Statement .midstateB := by
  unfold Statement
  decide

theorem testA : Statement .testA := by
  unfold Statement
  decide

theorem testB : Statement .testB := by
  unfold Statement
  decide

theorem testBMid : Statement .testBMid := by
  unfold Statement
  decide

theorem searchA : Statement .searchA := by
  unfold Statement
  decide

theorem searchB : Statement .searchB := by
  unfold Statement
  decide

theorem searchBMid : Statement .searchBMid := by
  unfold Statement
  decide

theorem regenA : Statement .regenA := by
  unfold Statement
  decide

theorem regenB : Statement .regenB := by
  unfold Statement
  decide

theorem regenBMid : Statement .regenBMid := by
  unfold Statement
  decide

end Sys2Proof.Laws.EncodingRow
end

