-- ==== Sys2Proof/Laws/Step.lean ====
section
/-!
SUPPORT. What a step can do, once: the engine performs the pending word, or takes its fault, or is idle; a host step is one
of its accesses. Proofs about every step cite these.
-/

namespace Sys2Proof.Machine

/-! ### The engine -/

theorem performWord_ok {w : Word} {i : Instr} (h : decode w = .ok i) (s : State) : performWord w s = exec i s := by
  simp [performWord, h]

theorem performWord_error {w : Word} {f : FaultCode} (h : decode w = .error f) (s : State) :
    performWord w s = .next (s.faultEntry f) := by
  simp [performWord, h]

/-- Everything the engine's step can do. -/
theorem engineStep_cases {s t : State} (h : engineStep s = .next t) :
    (s.pend = none ∧ t = s) ∨
    (∃ w f, s.pend = some w ∧ decode w = .error f ∧ t = s.faultEntry f) ∨
    (∃ w i, s.pend = some w ∧ decode w = .ok i ∧ exec i s = .next t) := by
  unfold engineStep at h
  split at h
  · cases h; exact .inl ⟨‹_›, rfl⟩
  · rename_i w hw
    cases hd : decode w with
    | error f =>
      rw [performWord_error hd] at h
      cases h
      exact .inr (.inl ⟨w, f, hw, hd, rfl⟩)
    | ok i => exact .inr (.inr ⟨w, i, hw, hd, by rw [← h, performWord_ok hd]⟩)

/-! ### The host -/

theorem unlessBusy_cases (s written : State) :
    (s.busy = true ∧ s.unlessBusy written = s.faultEntry .hostConflict) ∨
    (s.busy = false ∧ s.unlessBusy written = written) := by
  cases h : s.busy <;> simp [State.unlessBusy, h]

theorem writeCmd_cases (s : State) (w : Word) :
    (s.busy = true ∧ s.writeCmd w = s.faultEntry .cmdBusy) ∨
    (s.busy = false ∧ s.fault = true ∧ s.writeCmd w = s) ∨
    (s.busy = false ∧ s.fault = false ∧ s.writeCmd w = s.issue w) := by
  cases h : s.busy <;> cases hf : s.fault <;> simp [State.writeCmd, h, hf]

/-- Everything a host write of a register can do. -/
theorem writeRegister_cases (s : State) (r : Reg) (v : Word) :
    (s.busy = true ∧ ∃ f, s.writeRegister r v = s.faultEntry f) ∨
    s.writeRegister r v = s ∨
    (s.busy = false ∧ s.fault = false ∧ s.writeRegister r v = s.issue v) ∨
    (s.busy = false ∧ ∃ i, s.writeRegister r v = s.setArg i v) ∨
    s.writeRegister r v = s.setCancel v := by
  cases r with
  | cmd =>
    rcases writeCmd_cases s v with ⟨hb, e⟩ | ⟨-, -, e⟩ | ⟨hb, hf, e⟩
    · exact .inl ⟨hb, _, e⟩
    · exact .inr (.inl e)
    · exact .inr (.inr (.inl ⟨hb, hf, e⟩))
  | arg i =>
    rcases unlessBusy_cases s (s.setArg i v) with ⟨hb, e⟩ | ⟨hb, e⟩
    · exact .inl ⟨hb, _, e⟩
    · exact .inr (.inr (.inr (.inl ⟨hb, i, e⟩)))
  | cancel => exact .inr (.inr (.inr (.inr rfl)))
  | _ => exact .inr (.inl rfl)

/-- Everything a host read can do: it records a word and changes nothing else. -/
theorem hostRead_cases {cfg : Config} {width : Width} {off : Nat} {s t : State}
    (h : hostRead cfg width off s = .next t) : ∃ v, t = s.observe v := by
  unfold hostRead at h
  split at h
  · cases h
  · split at h
    · split at h
      · cases h; exact ⟨_, rfl⟩
      · cases h
    · split at h
      · cases h; exact ⟨_, rfl⟩
      · split at h
        · cases h; exact ⟨_, rfl⟩
        · cases h

/-- Everything a host write can do: a register write, or BUF bytes that conflict while BUSY. -/
theorem hostWrite_cases {cfg : Config} {width : Width} {off : Nat} {v : Word} {s t : State}
    (h : hostWrite cfg width off v s = .next t) :
    (∃ r, t = s.writeRegister r v) ∨ (∃ a bs, t = s.unlessBusy (s.memWrite cfg a bs)) := by
  unfold hostWrite at h
  split at h
  · cases h
  · split at h
    · split at h
      · cases h; exact .inl ⟨_, rfl⟩
      · cases h
    · split at h
      · cases h; exact .inr ⟨_, _, rfl⟩
      · split at h
        · cases h; exact .inr ⟨_, _, rfl⟩
        · cases h

/-- An access that is answered is answered at an offset from `HC_BASE`. -/
theorem atAddress_next {cfg : Config} {addr : Nat} {access : Nat → Host.Outcome State Fault Refusal} {t : State}
    (h : atAddress cfg addr access = .next t) : cfg.hcBase ≤ addr ∧ access (addr - cfg.hcBase) = .next t := by
  unfold atAddress at h
  split at h
  · exact ⟨‹_›, h⟩
  · cases h

/-- The block's own window: the access is at the offset (R72). -/
@[simp] theorem atAddress_base (cfg : Config) (off : Nat) (access : Nat → Host.Outcome State Fault Refusal) :
    atAddress cfg (cfg.hcBase + off) access = access off := by
  simp [atAddress]

@[simp] theorem atAddress_first (cfg : Config) (access : Nat → Host.Outcome State Fault Refusal) :
    atAddress cfg cfg.hcBase access = access 0 := atAddress_base cfg 0 access

/-- A host write to CMD of an idle block that is not faulted issues the word (R22). -/
theorem hostStep_issue {s : State} (hb : s.busy = false) (hf : s.fault = false) (w : Word) :
    hostStep Config.chip (.write .word (Config.chip.hcBase + 0x000) w) s = .next (s.issue w) := by
  simp [hostStep, hostWrite, windowEnd, bufOffset, isAlignedWord, regAt, State.writeRegister, State.writeCmd, hb, hf]

/-- Everything a host step can do. -/
theorem hostStep_cases {cfg : Config} {hs : HostStep} {s t : State} (h : hostStep cfg hs s = .next t) :
    (hs = .reset ∧ t = s.hostReset) ∨
    (∃ v, t = s.observe v) ∨
    (s.busy = true ∧ ∃ f, t = s.faultEntry f) ∨
    t = s ∨
    (s.busy = false ∧ s.fault = false ∧ ∃ w, t = s.issue w) ∨
    (s.busy = false ∧ ∃ i v, t = s.setArg i v) ∨
    (∃ v, t = s.setCancel v) ∨
    (s.busy = false ∧ ∃ a bs, t = s.memWrite cfg a bs) := by
  cases hs with
  | reset => cases h; exact .inl ⟨rfl, rfl⟩
  | read width addr =>
    simp only [hostStep] at h
    exact .inr (.inl (hostRead_cases (atAddress_next h).2))
  | write width addr v =>
    simp only [hostStep] at h
    refine .inr (.inr ?_)
    obtain ⟨r, rfl⟩ | ⟨a, bs, rfl⟩ := hostWrite_cases (atAddress_next h).2
    · rcases writeRegister_cases s r v with ⟨hb, f, e⟩ | e | ⟨hb, hf, e⟩ | ⟨hb, i, e⟩ | e
      · exact .inl ⟨hb, f, e⟩
      · exact .inr (.inl e)
      · exact .inr (.inr (.inl ⟨hb, hf, v, e⟩))
      · exact .inr (.inr (.inr (.inl ⟨hb, i, v, e⟩)))
      · exact .inr (.inr (.inr (.inr (.inl ⟨v, e⟩))))
    · rcases unlessBusy_cases s (s.memWrite cfg a bs) with ⟨hb, e⟩ | ⟨hb, e⟩
      · exact .inl ⟨hb, _, e⟩
      · exact .inr (.inr (.inr (.inr (.inr ⟨hb, a, bs, e⟩))))

/-! ### One step -/

/-- Whose turn a step is. -/
theorem step_cases {s t : State} (h : step s = .next t) :
    (s.agenda = [] ∧ engineStep s = .next t) ∨
    (∃ rest, s.agenda = .engine :: rest ∧ engineStep s.dropTurn = .next t) ∨
    (∃ hs rest, s.agenda = .host hs :: rest ∧ hostStep Config.chip hs s.dropTurn = .next t) := by
  simp only [step, takeTurn] at h
  split at h
  · exact .inl ⟨‹_›, h⟩
  · exact .inr (.inl ⟨_, ‹_›, h⟩)
  · exact .inr (.inr ⟨_, _, ‹_›, h⟩)

/-- A placed command word is the one the next step performs. -/
theorem step_withFetchWord (s : State) (nbits w : Nat) :
    step (s.withFetchWord nbits w) =
      performWord (BitVec.ofNat 32 w) { s.latchCommand (BitVec.ofNat 32 w) with agenda := s.agenda } := rfl

end Sys2Proof.Machine
end

