-- ==== Sys2Proof/Laws/Run.lean ====
section
/-!
SUPPORT. Runs of several steps, one step at a time.
-/

namespace Sys2Proof.Machine

theorem core_run_zero (s : State) : Sys2Proof.core.run 0 s = .next s := rfl

theorem core_run_succ {s t : State} (h : step s = .next t) (k : Nat) :
    Sys2Proof.core.run (k + 1) s = Sys2Proof.core.run k t := by
  have h' : Sys2Proof.core.step s = .next t := h
  simp only [Host.Core.run, h']

/-- An idle block whose host makes no step stays as it is (log 2). -/
theorem step_idle {s : State} (hp : s.pend = none) (ha : s.agenda = []) : step s = .next s := by
  simp [step, takeTurn, ha, engineStep, hp]

theorem core_run_idle {s : State} (hp : s.pend = none) (ha : s.agenda = []) (k : Nat) :
    Sys2Proof.core.run k s = .next s := by
  induction k with
  | zero => rfl
  | succ k ih => rw [core_run_succ (step_idle hp ha), ih]

end Sys2Proof.Machine
end

