-- ==== Sys2Proof/Tests/Slice0.lean ====
section
/-!
SUPPORT. Tests of the model: ill-formed commands, decoding, one step per command, and host accesses. Expected values are
the spec's vectors (spec/95_test_vectors.md V<n>) or worked by hand over a configuration whose primitives only move bytes.
-/

namespace Sys2Proof.Tests

open Sys2Proof Sys2Proof.Machine

/-! ### Helpers -/

/-- The first 64 bytes of a string, padded with zeros. -/
def pad64 (x : Bytes) : Bytes64 := ⟨((x ++ zeros 64).take 64).toArray, by simp [zeros]⟩

/-- The test table, base timestamp and decided parameters of the vectors, with primitives that put a tag in front of their
input. `PRIM_B1` puts the last four header bytes first, as the midstate interface does. -/
def plain : Config :=
  { nctx := 4
    bufSize := 4096
    nblocksW := 32
    midPrefix := 76
    hcBase := 0x40000000
    nInst := 1
    permTable := [0x76543210, 0x01234567, 0x31752064]
    baseTimestamp := 0x59682F00
    indexArith := .u32wrap
    primA1 := fun x => pad64 (0xA1 :: x)
    primA2 := fun x => pad64 (0xA2 :: x)
    primSel := fun v x => pad64 (BitVec.ofNat 8 v.val :: x)
    primB1 := fun x => pad64 (x.drop 76 ++ x.take 76)
    primB2 := fun x => pad64 (0xB2 :: x)
    primB3 := fun x => pad64 (0xB3 :: x)
    primB4 := fun x => pad64 (0xB4 :: x)
    midAbsorb := fun m => m
    midResume := fun m r => pad64 (r ++ m)
    hdrOrder := .wire
    digestMsw := .firstBE }

/-- `TOY(g, x)` of the vectors. -/
def toyPrim (g : Byte) (x : Bytes) : Bytes64 := pad64 (digestOf plain (g :: x) ++ digestOf plain ((g ^^^ 0x80) :: x))

/-- The test configuration of the vectors, for Composer B. -/
def toy : Config :=
  { plain with
    primB1 := toyPrim 0xC1
    primB2 := toyPrim 0xC2
    primB3 := toyPrim 0xC3
    primB4 := toyPrim 0xC4 }

/-- `HDR` of the vectors. -/
def hdr : Bytes :=
  (List.range 68).map (BitVec.ofNat 8) ++ [0x59, 0x68, 0x2F, 0x05, 72, 73, 74, 75, 0, 0, 0, 0]

/-- The reset state with `HDR` in BUF from `a` on. -/
def withHdr (a : Nat) : State := State.reset.memWrite plain a hdr

/-- A work record with `HDR` at 0x200, its target word at 0x300, and the nonce in ARG2. -/
def record (target nonce : Word) : State :=
  { (withHdr 0x200).memWrite plain 0x300 (be32 target) with arg0 := 0x200, arg1 := 0x300, arg2 := nonce }

/-- The work record with a search under way on it. -/
def searching (target n max : Word) (sel : Composer) (mid : Bool) : State :=
  { record target 0 with
    pend := some (encode (searchCommand sel mid))
    busy := true
    midValid := true
    srch := { n := n, max := max, tmsw := target, wr := 0x200, sel := sel, mid := mid, started := true } }

/-- Slot 0 initialized, "abc" at 0x100, ARG0 = 0x100, ARG1 = 3, ARG2 = 0x200. -/
def abc : State :=
  { (State.reset.setSlot 0 Ctx.init).memWrite plain 0x100 [0x61, 0x62, 0x63] with arg0 := 0x100, arg1 := 3, arg2 := 0x200 }

/-- The state of an outcome. -/
def after (o : Host.Outcome State Fault Refusal) : State :=
  match o with
  | .next s => s
  | .fault _ => State.reset
  | .refused _ => State.reset

/-- FAULT and FCODE after an outcome. -/
def faulted (o : Host.Outcome State Fault Refusal) : Bool × Byte := ((after o).fault, (after o).fcode)

/-! ### Well-formedness, decoding -/

theorem test_illformed_dgInit : (Instr.dgInit 4).WellFormed = false := by decide

theorem test_illformed_dgAbsorb : (Instr.dgAbsorb 5).WellFormed = false := by decide

theorem test_illformed_dgFinal : (Instr.dgFinal 15).WellFormed = false := by decide

/-- Slot selects past NCTX are refused by the decoder too (R95 item 2; V60). -/
theorem test_decode_illformed :
    decode 0x01400000 = .error .reservedField ∧ decode 0x02500000 = .error .reservedField ∧
    decode 0x03F00000 = .error .reservedField := by decide

/-- A word of each family, bit by bit from R90 and R93: digest, composers, harness. -/
theorem test_decode_words :
    decode (0b00000010#8 ++ 0b0011#4 ++ 0b0000#4 ++ 0b0#1 ++ 0b000000000000000#15) = .ok (.dgAbsorb 3) ∧
    decode (0b00000100#8 ++ 0b0000#4 ++ 0b0000#4 ++ 0b0#1 ++ 0b000000000000000#15) = .ok .dgDigest ∧
    decode (0b00010000#8 ++ 0b0000#4 ++ 0b0000#4 ++ 0b0#1 ++ 0b000000000000000#15) = .ok .permRead ∧
    decode (0b00010001#8 ++ 0b0000#4 ++ 0b0001#4 ++ 0b1#1 ++ 0b000000000000000#15) = .ok .composeBMid ∧
    decode (0b00010010#8 ++ 0b0000#4 ++ 0b0001#4 ++ 0b0#1 ++ 0b000000000000000#15) = .ok .midstateB ∧
    decode (0b00100000#8 ++ 0b0000#4 ++ 0b0001#4 ++ 0b0#1 ++ 0b000000000000000#15) = .ok .testB ∧
    decode (0b00100001#8 ++ 0b0000#4 ++ 0b0000#4 ++ 0b0#1 ++ 0b000000000000000#15) = .ok .searchA ∧
    decode (0b00100010#8 ++ 0b0000#4 ++ 0b0001#4 ++ 0b1#1 ++ 0b000000000000000#15) = .ok .regenBMid := by decide

/-- The word of every row of R93, slot 1 where it has one, decodes to its command. -/
theorem test_decode_all :
    [0x01100000#32, 0x02100000#32, 0x03100000#32, 0x04000000#32, 0x10000000#32, 0x11000000#32, 0x11010000#32,
      0x11018000#32, 0x12010000#32, 0x20000000#32, 0x20010000#32, 0x20018000#32, 0x21000000#32, 0x21010000#32,
      0x21018000#32, 0x22000000#32, 0x22010000#32, 0x22018000#32].map (fun w => (decode w).toOption) =
    [.dgInit 1, .dgAbsorb 1, .dgFinal 1, .dgDigest, .permRead, .composeA, .composeB, .composeBMid, .midstateB,
      .testA, .testB, .testBMid, .searchA, .searchB, .searchBMid, .regenA, .regenB, .regenBMid].map some := by decide

/-- Refused words: V60's and the edges of R94's ranges. -/
theorem test_decode_refused :
    [0x00000000#32, 0x05000000#32, 0x0F000000#32, 0x13008000#32, 0x1F000000#32, 0x23000000#32, 0xFF000000#32].map decode =
      List.replicate 7 (.error .illegalOpcode) ∧
    [0x01010000#32, 0x01008000#32, 0x04100000#32, 0x01000001#32, 0x12000000#32, 0x12018000#32, 0x11030000#32,
      0x11008000#32].map decode = List.replicate 8 (.error .reservedField) := by decide

/-- A placed word is the one that the next step performs. -/
theorem test_withFetchWord : step (State.reset.withFetchWord 32 0x01200000) =
    exec (.dgInit 2) { State.reset with pend := some 0x01200000, busy := true } := by rfl

/-! ### Digest commands -/

/-- R145's example. -/
theorem test_dgInit : (after (exec (.dgInit 0) State.reset)).slot 0 = Ctx.init ∧
    (after (exec (.dgInit 0) State.reset)).slot 1 = Ctx.atReset := by decide

/-- R146's example. -/
theorem test_dgAbsorb :
    let c := (after (exec (.dgAbsorb 0) abc)).slot 0
    c.num = 3 ∧ c.blk.toList.take 3 = [0x61, 0x62, 0x63] ∧ c.nblocks = 0 ∧ c.v = digestIV := by decide +kernel

/-- R222's order on an uninitialized slot with a bad range, and the bad range on an initialized one (V60). -/
theorem test_dgAbsorb_faults :
    faulted (exec (.dgAbsorb 1) { abc with arg0 := 0xFFFFFFFF, arg1 := 2 }) = (true, 0x03) ∧
    faulted (exec (.dgAbsorb 0) { abc with arg0 := 0xFFFFFFFF, arg1 := 2 }) = (true, 0x04) := by decide +kernel

/-- R147's example (V2): the digest of "abc", after the example of R146. -/
theorem test_dgFinal :
    (after (exec (.dgFinal 0) { after (exec (.dgAbsorb 0) abc) with arg0 := 0x200 })).memRead 0x200 32 =
      be32 0x66C7F0F4 ++ be32 0x62EEEDD9 ++ be32 0xD1F2D46B ++ be32 0xDC10E4E2 ++
      be32 0x4167C487 ++ be32 0x5CF2F7A2 ++ be32 0x297DA02B ++ be32 0x8F4BA8E0 := by decide +kernel

/-- V1: the digest of the empty string. -/
theorem test_dgDigest_empty :
    (after (exec .dgDigest { abc with arg1 := 0 })).memRead 0x200 32 =
      be32 0x1AB21D83 ++ be32 0x55CFA17F ++ be32 0x8E611948 ++ be32 0x31E81A8F ++
      be32 0x22BEC8C7 ++ be32 0x28FEFB74 ++ be32 0x7ED035EB ++ be32 0x5082AA2B := by decide +kernel

/-- V3: the digest of "abcd" 16 times, whose 64 bytes fill one block. -/
theorem test_dgDigest_block :
    digestOf Config.chip (List.flatten (List.replicate 16 [0x61, 0x62, 0x63, 0x64])) =
      be32 0xDEBE9FF9 ++ be32 0x2275B8A1 ++ be32 0x38604889 ++ be32 0xC18E5A4D ++
      be32 0x6FDB70E5 ++ be32 0x387E5765 ++ be32 0x293DCBA3 ++ be32 0x9C0C5732 := by decide +kernel

/-! ### Composers -/

/-- R168's example (V31): index 2 reads the last word; index 3 is past the end. -/
theorem test_permRead :
    (permRead plain { State.reset with arg0 := 2 }).result = 0x31752064 ∧
    (permRead plain { State.reset with arg0 := 3 }).fcode = 0x07 := by decide

/-- R168's selector sequence (V32), and the index below BASE_TIMESTAMP under each arithmetic (V33). -/
theorem test_selectors :
    (selectors plain 0x59682F05).map BitVec.toNat = [4, 6, 0, 2, 5, 7, 1, 3] ∧ permIndexOf plain 0 = 1 ∧
    permIndexOf { plain with indexArith := .math } 0 = 0 := by decide

/-- Ten stages in order, by hand: each tags the front of its input; index 2 goes to RESULT (V30). -/
theorem test_composeA :
    let t := composeA plain { withHdr 0 with arg1 := 0x59682F05, arg2 := 0x100 }
    t.memRead 0x100 13 = [3, 1, 7, 5, 2, 0, 6, 4, 0xA2, 0xA1, 0, 1, 2] ∧ t.result = 2 := by decide +kernel

/-- V40: Composer B over the test configuration. -/
theorem test_composeB_vector :
    (composeB toy { withHdr 0 with arg2 := 0x100 }).memRead 0x100 8 = [0xDA, 0xBC, 0x7D, 0x60, 0xCA, 0x4E, 0x25, 0xD7] := by
  decide +kernel

/-- Stages in order, by hand: the last four header bytes come first after stage 1. -/
theorem test_composeB :
    let t := composeB plain { withHdr 0 with arg0 := 0, arg2 := 0x100, result := 7 }
    t.memRead 0x100 9 = [0xB4, 0xB3, 0xB2, 0, 0, 0, 0, 0, 1] ∧ t.result = 0 := by decide +kernel

/-- R188: a stale prefix is used as it is (V41); without MIDSTATE the command faults (V60). -/
theorem test_composeBMid :
    (composeBMid plain { (midstateB plain (withHdr 0)).memWrite plain 0 [0xFF] with arg2 := 0x100 }).memRead 0x100 8 =
      [0xB4, 0xB3, 0xB2, 0, 0, 0, 0, 0] ∧
    (composeBMid plain (withHdr 0)).fcode = 0x06 := by decide +kernel

/-- R186: the first 76 bytes; all 80 must be in range. -/
theorem test_midstateB :
    (midstateB plain (withHdr 0)).midS = hdr.take 76 ∧
    (midstateB plain { withHdr 0 with arg0 := 0xFB1 }).fcode = 0x04 := by decide +kernel

/-! ### The harness -/

/-- R201, R196, by hand: with the tags in front the digest word is 0x03010705, above DIFF1: INVALID whatever the target. The
nonce goes in big-endian. -/
theorem test_testA :
    let t := test plain .A false (record 0xFFFFFFFF 0x000127D7)
    t.result = 0xFFFFFFFF ∧ t.memRead 0x24C 8 = [0x00, 0x01, 0x27, 0xD7, 3, 1, 7, 5] := by decide +kernel

/-- A configuration whose digest is the nonce field first: verdicts are those of the nonce. -/
def nonceFirst : Config :=
  { plain with primB2 := pad64, primB3 := pad64, primB4 := pad64 }

/-- R201 at its edges: 0x10000 is INVALID, 0xFFFF against 0xFFFE NOT_FOUND, 0xFFFF against itself FOUND. -/
theorem test_testB :
    (test nonceFirst .B false (record 0xFFFFFFFF 0x10000)).result = 0xFFFFFFFF ∧
    (test nonceFirst .B false (record 0xFFFE 0xFFFF)).result = 0 ∧
    (test nonceFirst .B false (record 0xFFFF 0xFFFF)).result = 1 := by decide +kernel

/-- R202: a target that is the nonce field itself is read before the nonce is written: the header's 0, not 5. -/
theorem test_testBMid :
    (test nonceFirst .B true (midstateB nonceFirst { record 0 5 with arg1 := 0x24C })).result = 0 ∧
    (test nonceFirst .B true { record 0 5 with arg0 := 0xF91 }).fcode = 0x06 := by decide +kernel

/-- R203: the start step latches the target word and writes no byte. -/
theorem test_searchStart :
    let t := search plain .A false { record 0x20000000 0 with arg3 := 20 }
    t.srch = { n := 0, max := 20, tmsw := 0x20000000, wr := 0x200, sel := .A, mid := false, started := true } ∧
    t.buf = (record 0x20000000 0).buf := by decide +kernel

/-- R204: the nonce passes at the target (found), not at one less (search goes on), and wraps to 0 after 0xFFFFFFFF (V53). -/
theorem test_searchB :
    (search nonceFirst .B false (searching 5 4 20 .B false)).statusWord = 0x0000000C ∧
    (search nonceFirst .B false (searching 4 4 20 .B false)).statusWord = 0x00000009 ∧
    (search nonceFirst .B false (searching 0 0xFFFFFFFF 2 .B false)).result = 0 := by decide +kernel

/-- R204, R205: not found at the bound, and on CANCEL. -/
theorem test_searchBMid :
    (search nonceFirst .B false (searching 0 6 7 .B false)).result = 7 ∧
    (search nonceFirst .B false { searching 0 6 99 .B false with cancel := true }).pend = none := by decide +kernel

/-- R207: the stored nonce is used; RESULT is the index of the header's own timestamp (V54). -/
theorem test_regenA :
    let t := regen plain .A false (record 0 9)
    t.result = 2 ∧ t.memRead 0x24C 8 = [0, 0, 0, 0, 3, 1, 7, 5] := by decide +kernel

/-- R207: RESULT is 0 for Composer B; the work record must be in range. -/
theorem test_regenB :
    (regen nonceFirst .B false (record 0 9)).result = 0 ∧
    (regen nonceFirst .B false { record 0 9 with arg0 := 0xF91 }).fcode = 0x04 := by decide +kernel

/-! ### Header images, digest words -/

/-- R195, R196, `WORD_LE`: groups of four reversed; the nonce is stored little-endian. -/
theorem test_wordLE :
    normHeader { plain with hdrOrder := .wordLE } [1, 2, 3, 4, 5, 6, 7, 8] = [4, 3, 2, 1, 8, 7, 6, 5] ∧
    nonceBytes { plain with hdrOrder := .wordLE } 0x01020304 = [4, 3, 2, 1] := by decide

/-- R198: the three readings of a digest's most-significant word. -/
theorem test_digestMsw :
    let d : Bytes := (List.range 32).map (BitVec.ofNat 8)
    digestMsw plain d = 0x00010203 ∧ digestMsw { plain with digestMsw := .lastBE } d = 0x1C1D1E1F ∧
    digestMsw { plain with digestMsw := .lastLE } d = 0x1F1E1D1C := by decide

/-! ### The host -/

/-- R67: a word write lands little-endian; R23: STATUS packs its fields. -/
theorem test_bufWord :
    (after (hostWrite Config.chip .word 0x1010 0x11223344 State.reset)).memRead 0x10 4 = [0x44, 0x33, 0x22, 0x11] := by decide +kernel

theorem test_statusWord :
    { State.reset with fault := true, fcode := 0x03 }.statusWord = 0x00000302 ∧
    { State.reset with busy := true, midValid := true }.statusWord = 0x00000009 := by decide

/-- V62: a CMD write while BUSY faults with CMD_BUSY, an ARG write with HOST_CONFLICT, and the later one is ignored. -/
theorem test_hostConflicts :
    faulted (hostWrite Config.chip .word 0x000 0x01000000 { State.reset with busy := true, pend := some 0 }) = (true, 0x05) ∧
    faulted (hostWrite Config.chip .word 0x014 1 { State.reset with busy := true, pend := some 0 }) = (true, 0x09) ∧
    (after (hostWrite Config.chip .word 0x000 0x01000000 { State.reset with fault := true, fcode := 9 })).pend = none := by decide

/-- R68: a misaligned word and a register byte are refused; R32: past the window there is nothing. -/
theorem test_hostShapes :
    hostWrite Config.chip .word 0x1002 0 State.reset = .refused .hostAccessShape ∧
    hostWrite Config.chip .byte 0x008 0 State.reset = .refused .hostAccessShape ∧
    hostWrite Config.chip .byte 0x2000 0 State.reset = .fault .outsideBlock := ⟨rfl, rfl, rfl⟩

/-- R72: the block answers at its base address; below it and past its window there is nothing. -/
theorem test_hcBase :
    (after (hostStep plain (.write .word 0x40000008 7) State.reset)).arg0 = 7 ∧
    hostStep plain (.write .word 0x3FFFFFFC 7) State.reset = .fault .outsideBlock ∧
    hostStep plain (.read .word 0x40002000) State.reset = .fault .outsideBlock := ⟨by decide, rfl, rfl⟩

/-- R7, with values of the decided parameters that are not the chip's: two slots, 256 bytes, an 8-bit block counter, a prefix of
72 bytes. -/
def small : Config := { plain with nctx := 2, bufSize := 256, nblocksW := 8, midPrefix := 72 }

theorem test_parameters :
    decodeFor small 0x01100000 = .ok (.dgInit 1) ∧ decodeFor small 0x01200000 = .error .reservedField ∧
    inRange small 224 32 = true ∧ inRange small 225 32 = false ∧ countBlock small 255 = 0 ∧
    State.reset.registerValue small .bufsz = 256 ∧ State.reset.registerValue small .nctxr = 2 := by decide

/-- R183: the midstate covers `MID_PREFIX` bytes. -/
theorem test_midPrefix : (midstateB small (withHdr 0)).midS = hdr.take 72 := by decide +kernel

/-! ### Witnesses: for each statement with hypotheses, a state and operands that meet them, at the edges of its clauses -/

/-- A state whose ARG registers are these. -/
def args (a0 a1 a2 a3 : Word) : State := { State.reset with arg0 := a0, arg1 := a1, arg2 := a2, arg3 := a3 }

/-- All four slots initialized, with these ARG registers. -/
def ready (a0 a1 : Word) : State :=
  { args a0 a1 0 0 with ctx := ⟨(List.replicate 4 Ctx.init ++ List.replicate 12 Ctx.atReset).toArray, rfl⟩ }

/-- A faulted block. -/
def faultedState : State := State.reset.faultEntry .bufRange

/-- A command pending. -/
def pending (w : Word) : State := State.reset.issue w

theorem witness_DecodeOfEncodeGivesTheCommand :
    (Instr.dgInit 3).WellFormed = true ∧ (Instr.dgAbsorb 0).WellFormed = true ∧ Instr.regenBMid.WellFormed = true := by
  decide

theorem witness_EncodeOfDecodeGivesTheWord :
    decode 0x03300000 = .ok (.dgFinal 3) ∧ decode 0x22018000 = .ok .regenBMid := by decide

theorem witness_IllegalOpcodes :
    [0x00000000#32, 0x05000000#32, 0x0F000000#32, 0x13000000#32, 0x1F000000#32, 0x23000000#32].map decode =
      List.replicate 6 (.error .illegalOpcode) := by decide

/-- One word for each of the seven conditions of R95, and one that meets none. -/
theorem witness_ReservedField :
    [0x04000001#32, 0x01400000#32, 0x04100000#32, 0x10010000#32, 0x11020000#32, 0x12000000#32, 0x20008000#32].map decode =
      List.replicate 7 (.error .reservedField) ∧
    [0x04000001#32, 0x01400000#32, 0x04100000#32, 0x10010000#32, 0x11020000#32, 0x12000000#32, 0x20008000#32].all
      (fun w => [0x01, 0x02, 0x03, 0x04, 0x10, 0x11, 0x12, 0x20, 0x21, 0x22].contains (bitsOf w 24 8)) = true ∧
    decode 0x20018000 = .ok .testBMid ∧ decode 0x20018000 ≠ .error .reservedField := by decide

theorem witness_EngineStep :
    ((pending 0x01000000).pend = some 0x01000000 ∧ decode 0x01000000 = .ok (.dgInit 0) ∧ (pending 0x01000000).agenda = []) ∧
    { pending 0x01000000 with agenda := [.engine] }.agenda = [.engine] ∧
    ((pending 0).pend = some 0 ∧ decode 0 = .error .illegalOpcode ∧ (pending 0).agenda = []) ∧
    { pending 0 with agenda := [.engine] }.agenda = [.engine] := by decide

theorem witness_IdleEngineAndHostTurns :
    (State.reset.pend = none ∧ State.reset.agenda = []) ∧ { State.reset with agenda := [.engine] }.agenda = [.engine] ∧
    { State.reset with agenda := [.host .reset] }.agenda = [.host .reset] := by decide

theorem witness_FaultEntry : State.reset.fault = false ∧ faultedState.fault = true := by decide

theorem witness_FaultingCommand :
    ∃ t, exec (.dgAbsorb 0) State.reset = .next t ∧ State.reset.fault = false ∧ t.fault = true :=
  ⟨_, rfl, rfl, rfl⟩

/-- A table with a bad nibble: the configuration that R8 refuses and R164 gives a meaning. -/
def badTable : Config := { plain with permTable := [0x00000008] }

theorem badTable_selBad (t : Word) : selBad badTable t = true := by
  have h : permIndexOf badTable t = 0 := Nat.mod_one _
  simp only [selBad, selectors, h]
  decide

theorem witness_BadSelector :
    (args 4016 4064 4064 0).arg0.toNat + 80 ≤ badTable.bufSize ∧ (args 4016 4064 4064 0).arg2.toNat + 32 ≤ badTable.bufSize ∧
    (args 3984 4064 0 0).arg0.toNat + 112 ≤ badTable.bufSize ∧ (args 3984 4064 0 0).arg1.toNat + 32 ≤ badTable.bufSize ∧
    selBad badTable (args 4016 4064 4064 0).arg1 = true ∧
    selBad badTable (timestampOf ((args 3984 4064 0 0).headerAt badTable (args 3984 4064 0 0).arg0)) = true :=
  ⟨by decide, by decide, by decide, by decide, badTable_selBad _, badTable_selBad _⟩

/-- 63 buffered bytes and one more fill a block. -/
theorem witness_AbsorbCompresses :
    ∃ m : Bytes, m = { Ctx.init with num := 63 }.blk.toList.take 63 ++ [1] ∧ m.length / 64 = 1 :=
  ⟨_, rfl, by decide⟩

theorem witness_FinalPads :
    (∃ p, p = { Ctx.init with num := 55 }.blk.toList.take 55 ++ [0x80] ++ zeros ((119 - 55) % 64) ++
      { Ctx.init with num := 55 }.lengthField) ∧
    (∃ p, p = { Ctx.init with num := 56 }.blk.toList.take 56 ++ [0x80] ++ zeros ((119 - 56) % 64) ++
      { Ctx.init with num := 56 }.lengthField) := ⟨⟨_, rfl⟩, ⟨_, rfl⟩⟩

theorem witness_MerkleDamgard :
    ∃ p : Bytes, ([] : Bytes).length < 2 ^ 38 ∧ p = [] ++ [0x80] ++ zeros ((119 - 0 % 64) % 64) ++
      be32 (BitVec.ofNat 32 (8 * 0 / 2 ^ 32)) ++ be32 (BitVec.ofNat 32 (8 * 0)) := ⟨_, by decide, rfl⟩

theorem witness_SlotSelects : slotExists Config.chip 3 = true ∧ slotExists Config.chip 4 = false := by decide

/-- DG_ABSORB: an uninitialized slot; a range one byte too long, and one that just ends at the end. -/
theorem witness_DgAbsorb :
    slotExists Config.chip 3 = true ∧ slotExists Config.chip 4 = false ∧ (State.reset.slot 3).st = .uninit ∧
    ((ready 4095 2).slot 3).st = .ready ∧ 4096 < (ready 4095 2).arg0.toNat + (ready 4095 2).arg1.toNat ∧
    ((ready 4095 1).slot 3).st = .ready ∧ (ready 4095 1).arg0.toNat + (ready 4095 1).arg1.toNat ≤ 4096 ∧
    ((ready 4096 0).slot 3).st = .ready ∧ (ready 4096 0).arg0.toNat + (ready 4096 0).arg1.toNat ≤ 4096 := by decide

theorem witness_DgFinal :
    slotExists Config.chip 3 = true ∧ slotExists Config.chip 4 = false ∧ (State.reset.slot 3).st = .uninit ∧
    ((ready 4065 0).slot 3).st = .ready ∧ 4096 < (ready 4065 0).arg0.toNat + 32 ∧
    ((ready 4064 0).slot 3).st = .ready ∧ (ready 4064 0).arg0.toNat + 32 ≤ 4096 := by decide

theorem witness_DgDigest :
    4096 < (args 4095 2 0 0).arg0.toNat + (args 4095 2 0 0).arg1.toNat ∧ 4096 < (args 0 0 4065 0).arg2.toNat + 32 ∧
    (args 4095 1 4064 0).arg0.toNat + (args 4095 1 4064 0).arg1.toNat ≤ 4096 ∧
    (args 4095 1 4064 0).arg2.toNat + 32 ≤ 4096 := by decide

/-- DG_FINAL on slot 0 into the last 32 bytes and DG_ABSORB on slot 3 of the byte before them. -/
theorem witness_SlotCommandsCommute :
    ∃ t u, (0 : BitVec 4) ≠ 3 ∧ Instr.dgFinal 0 ∈ slotCommands 0 ∧ Instr.dgAbsorb 3 ∈ slotCommands 3 ∧
      (∀ x, slotWrites 0 (.dgFinal 0) 4064 x → ¬ slotReads 3 (.dgAbsorb 3) 4063 1 x ∧ ¬ slotWrites 3 (.dgAbsorb 3) 4063 x) ∧
      (∀ x, slotWrites 3 (.dgAbsorb 3) 4063 x → ¬ slotReads 0 (.dgFinal 0) 4064 0 x) ∧
      exec (.dgFinal 0) { ready 0 0 with arg0 := 4064, arg1 := 0 } = .next t ∧
      exec (.dgAbsorb 3) { t with arg0 := 4063, arg1 := 1 } = .next u ∧ u.fault = false := by
  refine ⟨_, _, by decide, by decide, by decide, fun x h => ?_, fun x h => (Instr.noConfusion h.1), rfl, rfl, rfl⟩
  have h1 : 4064 ≤ x := h.2.1
  refine ⟨fun h' => ?_, fun h' => Instr.noConfusion h'.1⟩
  have h2 : x < 4064 := h'.2.2
  omega

/-- A configuration with a table of one entry, whose length divides 2^32. -/
def oneEntry : Config := { plain with permTable := [0x76543210] }

theorem witness_PermutationIndex :
    1 ≤ plain.tableLength ∧ plain.indexArith = .u32wrap ∧ { plain with indexArith := .math }.indexArith = .math ∧
    plain.baseTimestamp.toNat ≤ (0x59682F00 : Word).toNat ∧ 1 ≤ oneEntry.tableLength ∧ oneEntry.tableLength ∣ 2 ^ 32 := by
  decide

theorem witness_ComposerARuns :
    (∃ k, k < 8 ∧ 8 ≤ (permWord badTable (permIndexOf badTable 0)).toNat / 16 ^ k % 16) ∧
    (∀ k, k < 8 → (permWord plain (permIndexOf plain 0)).toNat / 16 ^ k % 16 < 8) :=
  ⟨⟨0, by decide, by decide⟩, by decide⟩

/-- Both arithmetics, and for U32WRAP each of the three cases: at BASE_TIMESTAMP, with the table's length below it, and any
timestamp where the length divides 2^32. -/
theorem witness_ComposerAPeriodic :
    1 ≤ plain.tableLength ∧ (3 : Word).toNat = (0 : Word).toNat + plain.tableLength ∧
    (0x59682F03 : Word).toNat = (0x59682F00 : Word).toNat + plain.tableLength ∧
    plain.baseTimestamp.toNat ≤ (0x59682F00 : Word).toNat ∧
    (0x59682EFF : Word).toNat = (0x59682EFC : Word).toNat + plain.tableLength ∧
    (0x59682EFC : Word).toNat + plain.tableLength < plain.baseTimestamp.toNat ∧
    (0x59682F00 : Word).toNat = (0x59682EFF : Word).toNat + oneEntry.tableLength ∧ oneEntry.tableLength ∣ 2 ^ 32 := by
  decide

theorem witness_PermRead :
    Config.chip.tableLength ≤ (args 0xFFFFFFFF 0 0 0).arg0.toNat ∧
    (args 0 0 0 0).arg0.toNat < Config.chip.permTable.length := by
  have h := chip_wellFormed
  have h1 : 1 ≤ Config.chip.permTable.length := h.table.1
  have h2 : Config.chip.permTable.length < 2 ^ 32 := h.table.2
  have e1 : (args 0xFFFFFFFF 0 0 0).arg0.toNat = 2 ^ 32 - 1 := rfl
  have e2 : (args 0 0 0 0).arg0.toNat = 0 := rfl
  unfold Config.tableLength
  omega

/-- COMPOSE.A and COMPOSE.B: each range one byte too far, and both just in range. -/
theorem witness_Compose :
    4096 < (args 4017 0 0 0).arg0.toNat + 80 ∧ 4096 < (args 0 0 4065 0).arg2.toNat + 32 ∧
    (args 4016 0 4064 0).arg0.toNat + 80 ≤ 4096 ∧ (args 4016 0 4064 0).arg2.toNat + 32 ≤ 4096 := by decide

theorem witness_ComposeBMid :
    State.reset.midValid = false ∧
    ({ args 4017 0 0 0 with midValid := true }.midValid = true ∧
      4096 < { args 4017 0 0 0 with midValid := true }.arg0.toNat + 80) ∧
    ({ args 4016 0 4064 0 with midValid := true }.midValid = true ∧
      { args 4016 0 4064 0 with midValid := true }.arg0.toNat + 80 ≤ 4096 ∧
      { args 4016 0 4064 0 with midValid := true }.arg2.toNat + 32 ≤ 4096) := by decide

theorem witness_MidstateHolds :
    4096 < (args 4017 0 0 0).arg0.toNat + 80 ∧ (args 4016 0 0 0).arg0.toNat + 80 ≤ 4096 ∧
    (∃ t, Instr.permRead ≠ .midstateB ∧ exec .permRead State.reset = .next t) ∧
    (∃ t, hostStep Config.chip .reset State.reset = .next t) ∧
    ∃ t, hostStep Config.chip (.write .word (Config.chip.hcBase + 0x000) 0x12010000) State.reset = .next t :=
  ⟨by decide, by decide, ⟨_, by decide, rfl⟩, ⟨_, rfl⟩, _, hostStep_issue rfl rfl _⟩

theorem witness_MidstateReplaces :
    Config.chip.WellFormed ∧ (zeros 80).length = 80 ∧ (zeros 76 ++ be32 7).length = 80 ∧
    (zeros 80).take Config.chip.midPrefix = (zeros 76 ++ be32 7).take Config.chip.midPrefix :=
  ⟨chip_wellFormed, by decide, by decide, by decide⟩

/-- A state whose MIDREG was made from the header at 0x200, with a search under way on it. -/
def freshSearch : State :=
  { searching 0 0 9 .B true with
    midS := Config.chip.midAbsorb ((normHeader Config.chip ((searching 0 0 9 .B true).memRead 0x200 80)).take 76) }

theorem witness_MidstateChangesNoResult :
    (∃ t, (args 4016 0 0 0).arg0.toNat + 80 ≤ 4096 ∧ exec .midstateB (args 4016 0 0 0) = .next t) ∧
    (FreshMidstate freshSearch freshSearch.arg0 ∧ freshSearch.arg0.toNat + 80 ≤ 4096 ∧
      { freshSearch with srch := Srch.atReset }.srch.started = false ∧
      FreshMidstate { freshSearch with srch := Srch.atReset } freshSearch.arg0) ∧
    freshSearch.srch.started = true ∧ freshSearch.srch.sel = .B ∧ freshSearch.srch.wr.toNat + 112 ≤ 4096 ∧
    FreshMidstate freshSearch freshSearch.srch.wr :=
  ⟨⟨_, by decide, rfl⟩, ⟨⟨rfl, rfl⟩, by decide, rfl, rfl, rfl⟩, rfl, rfl, by decide, rfl, rfl⟩

theorem witness_Normalization :
    (zeros 80).length = 80 ∧ plain.hdrOrder = .wire ∧ { plain with hdrOrder := .wordLE }.hdrOrder = .wordLE := by decide

theorem witness_SetNonce :
    (4016 : Word).toNat + 80 ≤ plain.bufSize ∧ plain.hdrOrder = .wire ∧ { plain with hdrOrder := .wordLE }.hdrOrder = .wordLE := by
  decide

theorem witness_Verdict :
    0xFFFF < (0x10000 : Word).toNat ∧ ((0xFFFF : Word).toNat ≤ 0xFFFF ∧ (0xFFFE : Word).toNat < (0xFFFF : Word).toNat) ∧
    ((0xFFFF : Word).toNat ≤ 0xFFFF ∧ (0xFFFF : Word).toNat ≤ (0xFFFF : Word).toNat) := by decide

/-- TEST and the start step of SEARCH: MIDREG invalid; each range one byte too far; both just in range; with and without the
midstate. -/
theorem witness_TestAndSearchStart :
    State.reset.midValid = false ∧ State.reset.srch.started = false ∧
    4096 < (args 3985 0 0 0).arg0.toNat + 112 ∧ 4096 < (args 0 4065 0 0).arg1.toNat + 32 ∧
    (args 3984 4064 0 0).arg0.toNat + 112 ≤ 4096 ∧ (args 3984 4064 0 0).arg1.toNat + 32 ≤ 4096 ∧
    (args 3984 4064 0 0).srch.started = false ∧ { args 3984 4064 0 0 with midValid := true }.midValid = true ∧
    (searching 0 0 9 .A false).srch.started = true := by decide

theorem witness_Regen :
    State.reset.midValid = false ∧ 4096 < (args 3985 0 0 0).arg0.toNat + 112 ∧
    (args 3984 0 0 0).arg0.toNat + 112 ≤ 4096 ∧ { args 3984 0 0 0 with midValid := true }.midValid = true := by decide

/-- TEST.A on a record in range completes on the chip. -/
theorem testA_completes : ∃ t, exec .testA (args 3984 4064 5 0) = .next t ∧ t.fault = false := by
  refine ⟨_, rfl, ?_⟩
  obtain ⟨d, j, h⟩ := chain_chip_ok ((args 3984 4064 5 0).setNonce Config.chip (args 3984 4064 5 0).arg0
    (args 3984 4064 5 0).arg2) .A false (args 3984 4064 5 0).arg0
  have hi : inRange Config.chip (args 3984 4064 5 0).arg0 112 = true := by decide
  have hj : inRange Config.chip (args 3984 4064 5 0).arg1 32 = true := by decide
  simp only [test, harnessChecks, recordChecks, selectorCheck, hi, hj, chip_selBad, h, Bool.false_and, Bool.and_false,
    Bool.not_true, List.cons_append, List.nil_append, State.guarded_false, State.guarded_nil, State.orFault_ok]
  rfl

theorem witness_TestAgrees :
    ∃ t u, (Instr.testA, Instr.searchA, Composer.A, false) ∈
        [(Instr.testA, Instr.searchA, Composer.A, false), (.testB, .searchB, .B, false), (.testBMid, .searchBMid, .B, true)] ∧
      exec .testA (args 3984 4064 5 0) = .next t ∧ t.fault = false ∧
      exec .searchA
        { args 3984 4064 5 0 with srch :=
          { n := (args 3984 4064 5 0).arg2 - 1, max := 9,
            tmsw := readBE32 ((args 3984 4064 5 0).memRead (args 3984 4064 5 0).arg1.toNat 4) 0,
            wr := (args 3984 4064 5 0).arg0, sel := .A, mid := false, started := true } } = .next u := by
  obtain ⟨t, ht, hf⟩ := testA_completes
  exact ⟨t, _, by decide, ht, hf, rfl⟩

theorem witness_RegenAfterTest :
    ∃ t u, (Instr.testA, Instr.regenA) ∈ [(Instr.testA, Instr.regenA), (.testB, .regenB), (.testBMid, .regenBMid)] ∧
      exec .testA (args 3984 4064 5 0) = .next t ∧ t.fault = false ∧ exec .regenA t = .next u := by
  obtain ⟨t, ht, hf⟩ := testA_completes
  exact ⟨t, _, by decide, ht, hf, rfl⟩

theorem witness_SearchAttempt :
    ∃ u, Instr.searchA ∈ [Instr.searchA, .searchB, .searchBMid] ∧ (searching 0 0 9 .A false).srch.started = true ∧
      (searching 0 0 9 .A false).srch.wr.toNat + 112 ≤ 4096 ∧
      u = ({ searching 0 0 9 .A false with srch :=
          { (searching 0 0 9 .A false).srch with n := (searching 0 0 9 .A false).srch.n + 1 } }).setNonce Config.chip
        (searching 0 0 9 .A false).srch.wr ((searching 0 0 9 .A false).srch.n + 1) :=
  ⟨_, by decide, by decide, by decide, rfl⟩

/-- Against the largest target word every attempt ends the search. -/
theorem witness_FinishedSearch :
    ∃ t, Instr.searchB ∈ [Instr.searchA, .searchB, .searchBMid] ∧
      (searching 0xFFFFFFFF 0 9 .B false).srch.started = true ∧
      (searching 0xFFFFFFFF 0 9 .B false).srch.wr.toNat + 112 ≤ 4096 ∧
      exec .searchB (searching 0xFFFFFFFF 0 9 .B false) = .next t ∧ t.srch.started = false := by
  obtain ⟨d, j, -, e⟩ := searchAttempt_chip (searching 0xFFFFFFFF 0 9 .B false)
  refine ⟨searchAttempt Config.chip (searching 0xFFFFFFFF 0 9 .B false), by decide, by decide, by decide, rfl, ?_⟩
  have hle : digestMsw Config.chip d ≤
      ((searching 0xFFFFFFFF 0 9 .B false).nextNonce Config.chip).srch.tmsw := by
    rw [BitVec.le_def]
    exact Nat.le_of_lt_succ (digestMsw Config.chip d).isLt
  rw [e, State.afterAttempt, if_pos hle]
  rfl

theorem witness_PassingTargetOrCancel :
    (searching 0xFFFFFFFF 0 9 .A false).srch.started = true ∧ (searching 0xFFFFFFFF 0 9 .A false).srch.tmsw = 0xFFFFFFFF ∧
    { searching 0 0 9 .A false with cancel := true }.srch.started = true ∧
    { searching 0 0 9 .A false with cancel := true }.cancel = true := by decide

/-- A search under way meets the invariant, with one attempt and with many before its bound. -/
theorem witness_SearchTerminates :
    Inv (searching 0 8 9 .A false) ∧ (searching 0 8 9 .A false).srch.started = true ∧ (searching 0 8 9 .A false).agenda = [] ∧
    (searching 0 8 9 .A false).srch.n.toNat < (searching 0 8 9 .A false).srch.max.toNat ∧
    (searching 0 0 0xFFFFFFFF .A false).srch.n.toNat < (searching 0 0 0xFFFFFFFF .A false).srch.max.toNat := by
  refine ⟨⟨by decide +kernel, by decide +kernel, by decide +kernel, by decide +kernel, by decide +kernel, fun _ =>
    ⟨⟨0x21000000, by decide +kernel, by decide +kernel⟩, by decide +kernel, by decide +kernel⟩, by decide +kernel⟩, ?_⟩
  decide +kernel

theorem witness_MemWrite :
    4095 + 1 ≤ Config.chip.bufSize ∧ 4095 + 1 ≤ plain.bufSize ∧ ([7] : Bytes).length = 1 ∧ 0 < 1 ∧
    (4094 < 4095 ∨ 4095 + 1 ≤ 4094) := by decide

theorem witness_CmdWrite :
    { State.reset with agenda := [.host (.write .word (Config.chip.hcBase + 0x000) 7)] }.agenda =
      [.host (.write .word (Config.chip.hcBase + 0x000) 7)] ∧
    (State.reset.busy = false ∧ State.reset.fault = false) ∧ ((pending 0).busy = true ∧ (pending 0).fault = false) ∧
    (faultedState.busy = false ∧ faultedState.fault = true) ∧
    { State.reset with agenda := [.host (.read .word (Config.chip.hcBase + 0x000))] }.agenda =
      [.host (.read .word (Config.chip.hcBase + 0x000))] :=
  ⟨rfl, ⟨rfl, rfl⟩, ⟨rfl, rfl⟩, ⟨rfl, rfl⟩, rfl⟩

theorem witness_ArgAndBufWrites :
    (pending 0).busy = true ∧ State.reset.busy = false ∧ 4095 < 4096 ∧ (4092 < 4096 ∧ 4092 % 4 = 0) ∧
    ∃ t, hostRead Config.chip .word 0x018 (pending 0) = .next t := ⟨by decide, by decide, by decide, by decide, _, rfl⟩

theorem witness_BufWord : State.reset.busy = false ∧ 4092 % 4 = 0 ∧ 4092 < 4096 := by decide

/-- Both edges of the window. (The lower edge shows only on a configuration whose base is not 0, which `HC_BASE` may be.) -/
theorem witness_HostAccessShapes :
    0x1000 + 4096 ≤ 0x2000 ∧ 0x1FFF < 0x1000 + 4096 ∧ 0xFFF < 0x1000 + 4096 ∧ 0x3FFFFFFF < plain.hcBase := by decide

theorem witness_HostReads : ∃ t u, hostRead Config.chip .byte 0x1FFF State.reset = .next t ∧
    hostRead Config.chip .word 0x018 (pending 0) = .next u := ⟨_, _, rfl, rfl⟩

theorem witness_Registers :
    0x02C ∈ [0x004, 0x018, 0x020, 0x024, 0x028, 0x02C] ∧
    State.reset.busy = false ∧ (0x030 ≤ 0x030 ∧ 0x030 < 0x1000 ∧ 0x030 % 4 = 0) ∧
    (0x030 ≤ 0xFFC ∧ 0xFFC < 0x1000 ∧ 0xFFC % 4 = 0) := by decide

theorem witness_ReadsWhileBusy : (pending 0).busy = true ∧ State.reset.busy = false ∧ 4092 < 4096 ∧ 4092 % 4 = 0 := by decide

theorem witness_HostReset : { faultedState with agenda := [.host .reset] }.agenda = [.host .reset] := by decide

/-- A faulted block meets the invariant; the engine's turn and a CMD write are steps of it. -/
theorem witness_OnlyReset :
    (∃ t, step faultedState = .next t) ∧ faultedState.fault = true ∧ (∀ rest, faultedState.agenda ≠ .host .reset :: rest) ∧
    Inv faultedState :=
  ⟨⟨_, rfl⟩, rfl, by simp [faultedState, State.faultEntry, State.reset],
    ⟨by decide, by decide, by decide, by decide, by decide, (fun h => by cases h), by decide⟩⟩

/-- One command for each clause. -/
theorem witness_CommandsWriteOnly :
    (∃ t, exec .permRead State.reset = .next t) ∧ Instr.permRead ∉ [Instr.searchA, .searchB, .searchBMid] ∧
    (∀ k, Instr.permRead ≠ .dgInit k ∧ Instr.permRead ≠ .dgAbsorb k ∧ Instr.permRead ≠ .dgFinal k) ∧
    (∃ t, exec (.dgFinal 3) (ready 4064 0) = .next t) ∧ (∃ t, exec .midstateB State.reset = .next t) :=
  ⟨⟨_, rfl⟩, by decide, by simp, ⟨_, rfl⟩, ⟨_, rfl⟩⟩

theorem witness_NonStoring :
    (∃ t, exec (.dgInit 3) State.reset = .next t) ∧ (∃ t, exec .permRead State.reset = .next t) ∧
    (∃ t, exec .searchA (args 3984 4064 0 9) = .next t) ∧ (args 3984 4064 0 9).srch.started = false :=
  ⟨⟨_, rfl⟩, ⟨_, rfl⟩, ⟨_, rfl⟩, rfl⟩

theorem witness_EveryStepKeepsTheInvariant :
    Inv { State.reset with agenda := [.host (.write .word (Config.chip.hcBase + 0x000) 0x01000000)] } ∧
    ∃ t, step { State.reset with agenda := [.host (.write .word (Config.chip.hcBase + 0x000) 0x01000000)] } = .next t := by
  refine ⟨⟨?_, rfl, ?_, ?_, ?_, (fun h => by cases h), ?_⟩, State.reset.issue 0x01000000, ?_⟩
  · exact show Memory.wf [] Config.chip.bufSize by decide
  · exact show State.reset.fcode = 0 ↔ State.reset.fault = false by decide
  · exact show State.reset.fcode.toNat ≤ 9 by decide
  · exact show State.reset.fault = true → State.reset.pend = none by decide
  · exact show ∀ k, slotExists Config.chip k = false → State.reset.slot k = Ctx.atReset by decide
  · simp only [step, takeTurn]
    exact hostStep_issue (s := State.reset) rfl rfl _

end Sys2Proof.Tests
end

/-!
SUPPORT. The shape of every command's effect on the chip, once: what each of the 18 commands can write, with the conditions the
invariant needs. Proofs about every command go through the shapes of `Effect` instead of the commands.
-/

namespace Sys2Proof.Machine

/-- The commands that run a composer over a header as it stands (R169, R187, R188, R207). -/
def chainCommands : List Instr := [.composeA, .composeB, .composeBMid, .regenA, .regenB, .regenBMid]

/-- The three forms of TEST (R202). -/
def testCommands : List Instr := [.testA, .testB, .testBMid]

/-- The three forms of SEARCH (R203). -/
def searchCommands : List Instr := [.searchA, .searchB, .searchBMid]

/-- The state `t` a command `i` may leave, performed on `s`: its fault entry, or the writes of its rule. -/
inductive Effect (s : State) : Instr → State → Prop where
  /-- A check failed (R224). -/
  | fault (i : Instr) (f : FaultCode) : Effect s i (s.faultEntry f)
  /-- DG_INIT and DG_ABSORB write their slot (R145, R146). -/
  | slot {i : Instr} {k : BitVec 4} (hi : i = .dgInit k ∨ i = .dgAbsorb k) (hk : slotExists Config.chip k = true)
      (c : Ctx) : Effect s i (s.setSlot k c).complete
  /-- DG_FINAL stores the digest and writes its slot (R147). -/
  | final {k : BitVec 4} (hk : slotExists Config.chip k = true) (a : Nat) (d : Bytes) (c : Ctx) :
      Effect s (.dgFinal k) ((s.memWrite Config.chip a d).setSlot k c).complete
  /-- DG_DIGEST stores the digest (R148). -/
  | digest (a : Nat) (d : Bytes) : Effect s .dgDigest (s.memWrite Config.chip a d).complete
  /-- PERM_READ answers the table word (R168). -/
  | perm (v : Word) : Effect s .permRead (s.setResult v).complete
  /-- MIDSTATE.B loads MIDREG (R186). -/
  | midstate (m : Mid) : Effect s .midstateB (s.setMidstate m).complete
  /-- COMPOSE and REGEN store a digest and answer its index (R169, R187, R188, R207). -/
  | chain {i : Instr} (hi : i ∈ chainCommands) (a : Nat) (d : Bytes) (v : Word) :
      Effect s i ((s.memWrite Config.chip a d).setResult v).complete
  /-- TEST stores the nonce and the digest and answers the verdict (R202). -/
  | test {i : Instr} (hi : i ∈ testCommands) (a b : Nat) (n d : Bytes) (v : Word) :
      Effect s i (((s.memWrite Config.chip a n).memWrite Config.chip b d).setResult v).complete
  /-- SEARCH starts: SRCH is loaded over a checked record (R203). -/
  | start (sel : Composer) (mid : Bool) (hm : mid = true → s.midValid = true)
      (hr : inRange Config.chip s.arg0 112 = true) :
      Effect s (searchCommand sel mid) (s.setSrch
        { n := s.arg2, max := s.arg3, tmsw := s.targetMsw s.arg1, wr := s.arg0, sel := sel, mid := mid,
          started := true })
  /-- An attempt of SEARCH that goes on (R204). -/
  | attempt {i : Instr} (hi : i ∈ searchCommands) (hs : s.srch.started = true) :
      Effect s i (s.nextNonce Config.chip)
  /-- An attempt of SEARCH that ends it (R204, R206). -/
  | finish {i : Instr} (hi : i ∈ searchCommands) (hs : s.srch.started = true)
      (found : Bool) (d : Bytes) : Effect s i ((s.nextNonce Config.chip).finishSearch Config.chip found d)

variable (s : State)

/-! ### The classes of commands -/

theorem chainCommand_not_search : ∀ i ∈ chainCommands, i ∉ searchCommands := by decide

theorem testCommand_not_search : ∀ i ∈ testCommands, i ∉ searchCommands := by decide

/-- A command on a context slot is in no class. -/
theorem slotCommand_not_mem (k : BitVec 4) :
    ∀ i ∈ slotCommands k, i ∉ chainCommands ∧ i ∉ testCommands ∧ i ∉ searchCommands := by
  simp [slotCommands, chainCommands, testCommands, searchCommands]

/-! ### Each meaning has its effect -/

theorem searchCommand_mem (sel : Composer) (mid : Bool) : searchCommand sel mid ∈ searchCommands := by
  cases sel <;> cases mid <;> decide

theorem dgInit_effect (k : BitVec 4) : Effect s (.dgInit k) (dgInit Config.chip k s) := by
  obtain ⟨f, e⟩ | ⟨hk, e⟩ := dgInit_cases Config.chip k s <;> rw [e]
  · exact .fault _ f
  · exact .slot (.inl rfl) hk _

theorem dgAbsorb_effect (k : BitVec 4) : Effect s (.dgAbsorb k) (dgAbsorb Config.chip k s) := by
  obtain ⟨f, e⟩ | ⟨hk, -, -, e⟩ := dgAbsorb_cases Config.chip k s <;> rw [e]
  · exact .fault _ f
  · exact .slot (.inr rfl) hk _

theorem dgFinal_effect (k : BitVec 4) : Effect s (.dgFinal k) (dgFinal Config.chip k s) := by
  obtain ⟨f, e⟩ | ⟨hk, -, -, e⟩ := dgFinal_cases Config.chip k s <;> rw [e]
  · exact .fault _ f
  · exact .final hk _ _ _

theorem dgDigest_effect : Effect s .dgDigest (dgDigest Config.chip s) := by
  obtain ⟨f, e⟩ | ⟨-, -, e⟩ := dgDigest_cases Config.chip s <;> rw [e]
  · exact .fault _ f
  · exact .digest _ _

theorem permRead_effect : Effect s .permRead (permRead Config.chip s) := by
  obtain ⟨f, e⟩ | ⟨-, e⟩ := permRead_cases Config.chip s <;> rw [e]
  · exact .fault _ f
  · exact .perm _

theorem composeA_effect : Effect s .composeA (composeA Config.chip s) := by
  obtain ⟨f, e⟩ | ⟨d, i, -, -, -, e⟩ := composeA_cases Config.chip s <;> rw [e]
  · exact .fault _ f
  · exact .chain (by decide) _ d i

theorem composeB_effect : Effect s .composeB (composeB Config.chip s) := by
  obtain ⟨f, e⟩ | ⟨-, -, e⟩ := composeB_cases Config.chip s <;> rw [e]
  · exact .fault _ f
  · exact .chain (by decide) _ _ _

theorem composeBMid_effect : Effect s .composeBMid (composeBMid Config.chip s) := by
  obtain ⟨f, e⟩ | ⟨-, -, -, e⟩ := composeBMid_cases Config.chip s <;> rw [e]
  · exact .fault _ f
  · exact .chain (by decide) _ _ _

theorem midstateB_effect : Effect s .midstateB (midstateB Config.chip s) := by
  obtain ⟨f, e⟩ | ⟨-, e⟩ := midstateB_cases Config.chip s <;> rw [e]
  · exact .fault _ f
  · exact .midstate _

theorem test_effect {i : Instr} (hi : i ∈ testCommands) (sel : Composer) (mid : Bool) :
    Effect s i (test Config.chip sel mid s) := by
  obtain ⟨f, e⟩ | ⟨d, v, -, -, -, -, e⟩ := test_cases Config.chip sel mid s <;> rw [e]
  · exact .fault _ f
  · exact .test hi _ _ _ d _

theorem regen_effect {i : Instr} (hi : i ∈ chainCommands) (sel : Composer) (mid : Bool) :
    Effect s i (regen Config.chip sel mid s) := by
  obtain ⟨f, e⟩ | ⟨d, v, -, -, -, e⟩ := regen_cases Config.chip sel mid s <;> rw [e]
  · exact .fault _ f
  · exact .chain hi _ d v

theorem searchAttempt_effect {i : Instr} (hi : i ∈ searchCommands)
    (hs : s.srch.started = true) : Effect s i (searchAttempt Config.chip s) := by
  obtain ⟨d, -, -, e⟩ := searchAttempt_chip s
  rw [e]
  obtain ⟨-, e⟩ | ⟨-, -, e⟩ | ⟨-, -, -, e⟩ := afterAttempt_cases (s.nextNonce Config.chip) Config.chip d <;> rw [e]
  · exact .finish hi hs true d
  · exact .finish hi hs false d
  · exact .attempt hi hs

theorem search_effect (sel : Composer) (mid : Bool) :
    Effect s (searchCommand sel mid) (search Config.chip sel mid s) := by
  unfold search
  split
  · exact searchAttempt_effect s (searchCommand_mem sel mid) ‹_›
  · obtain ⟨f, e⟩ | ⟨hm, hr, -, e⟩ := searchStart_cases Config.chip sel mid s <;> rw [e]
    · exact .fault _ f
    · exact .start sel mid hm hr

/-! ### Every command -/

/-- Every command answers a next state, of the shape its effect names. -/
theorem exec_answers (i : Instr) : ∃ t, exec i s = .next t ∧ Effect s i t := by
  cases i with
  | dgInit k => exact ⟨_, rfl, dgInit_effect s k⟩
  | dgAbsorb k => exact ⟨_, rfl, dgAbsorb_effect s k⟩
  | dgFinal k => exact ⟨_, rfl, dgFinal_effect s k⟩
  | dgDigest => exact ⟨_, rfl, dgDigest_effect s⟩
  | permRead => exact ⟨_, rfl, permRead_effect s⟩
  | composeA => exact ⟨_, rfl, composeA_effect s⟩
  | composeB => exact ⟨_, rfl, composeB_effect s⟩
  | composeBMid => exact ⟨_, rfl, composeBMid_effect s⟩
  | midstateB => exact ⟨_, rfl, midstateB_effect s⟩
  | testA => exact ⟨_, rfl, test_effect s (by decide) .A false⟩
  | testB => exact ⟨_, rfl, test_effect s (by decide) .B false⟩
  | testBMid => exact ⟨_, rfl, test_effect s (by decide) .B true⟩
  | searchA => exact ⟨_, rfl, search_effect s .A false⟩
  | searchB => exact ⟨_, rfl, search_effect s .B false⟩
  | searchBMid => exact ⟨_, rfl, search_effect s .B true⟩
  | regenA => exact ⟨_, rfl, regen_effect s (by decide) .A false⟩
  | regenB => exact ⟨_, rfl, regen_effect s (by decide) .B false⟩
  | regenBMid => exact ⟨_, rfl, regen_effect s (by decide) .B true⟩

/-- Everything a command can do. -/
theorem exec_effect {i : Instr} {s t : State} (h : exec i s = .next t) : Effect s i t := by
  obtain ⟨u, hu, e⟩ := exec_answers s i
  obtain rfl : u = t := Host.Outcome.next.inj (hu.symm.trans h)
  exact e

end Sys2Proof.Machine

/-!
SUPPORT. The invariant through each operation on the state, through every command and every step; and the statements about it
(spec/10_state.md R23, R33, R39, spec/20_memory.md R76, spec/60_exceptions.md R226).
-/

namespace Sys2Proof

open Sys2Proof.Machine

variable {s : State}

/-! ### Operations that keep what is pending -/

theorem Inv.observe (h : Inv s) (v : Word) : Inv (s.observe v) :=
  ⟨h.bufCanonical, h.busyPending, h.fcodeZero, h.fcodeListed, h.faultStops, h.searchStarted, h.absentSlots⟩

theorem Inv.dropTurn (h : Inv s) : Inv s.dropTurn :=
  ⟨h.bufCanonical, h.busyPending, h.fcodeZero, h.fcodeListed, h.faultStops, h.searchStarted, h.absentSlots⟩

theorem Inv.setCancel (h : Inv s) (v : Word) : Inv (s.setCancel v) :=
  ⟨h.bufCanonical, h.busyPending, h.fcodeZero, h.fcodeListed, h.faultStops, h.searchStarted, h.absentSlots⟩

theorem Inv.setArg (h : Inv s) (i : Fin 4) (v : Word) : Inv (s.setArg i v) := by
  unfold State.setArg
  split <;>
    exact ⟨h.bufCanonical, h.busyPending, h.fcodeZero, h.fcodeListed, h.faultStops, h.searchStarted, h.absentSlots⟩

theorem Inv.setResult (h : Inv s) (v : Word) : Inv (s.setResult v) :=
  ⟨h.bufCanonical, h.busyPending, h.fcodeZero, h.fcodeListed, h.faultStops, h.searchStarted, h.absentSlots⟩

theorem Inv.memWrite (h : Inv s) (a : Nat) (bs : Bytes) : Inv (s.memWrite Config.chip a bs) :=
  ⟨Memory.putBytes_wf h.bufCanonical a bs, h.busyPending, h.fcodeZero, h.fcodeListed, h.faultStops, h.searchStarted,
    h.absentSlots⟩

theorem Inv.setMidstate (h : Inv s) (m : Mid) : Inv (s.setMidstate m) :=
  ⟨h.bufCanonical, h.busyPending, h.fcodeZero, h.fcodeListed, h.faultStops,
    fun hs => ⟨(h.searchStarted hs).1, (h.searchStarted hs).2.1, fun _ => rfl⟩, h.absentSlots⟩

/-- Only a slot of the block is written, so those past `NCTX` stay as reset left them. -/
theorem Inv.setSlot (h : Inv s) {k : BitVec 4} (hk : slotExists Config.chip k = true) (c : Ctx) : Inv (s.setSlot k c) :=
  ⟨h.bufCanonical, h.busyPending, h.fcodeZero, h.fcodeListed, h.faultStops, h.searchStarted, fun j hj => by
    have hne : j ≠ k := by rintro rfl; simp [hk] at hj
    rw [State.slot_setSlot_other s hne, h.absentSlots j hj]⟩

/-- SRCH may be loaded with any registers that meet the invariant's own condition on a started search. -/
theorem Inv.setSrch (h : Inv s) {r : Srch} (hr : r.started = true → SearchPending (s.setSrch r)) : Inv (s.setSrch r) :=
  ⟨h.bufCanonical, h.busyPending, h.fcodeZero, h.fcodeListed, h.faultStops, hr, h.absentSlots⟩

/-- An attempt's nonce is no part of what the invariant says of a search. -/
theorem Inv.nextNonce (h : Inv s) : Inv (s.nextNonce Config.chip) :=
  (h.setSrch (r := { s.srch with n := s.srch.n + 1 }) h.searchStarted).memWrite _ _

/-! ### Operations that begin or end a command -/

/-- With no command pending, no search is under way. -/
theorem Inv.not_started_of_idle (h : Inv s) (hp : s.pend = none) : s.srch.started = false := by
  by_contra hs
  obtain ⟨⟨w, hw, -⟩, -⟩ := h.searchStarted (by simpa using hs)
  simp [hp] at hw

/-- A command that is no SEARCH is performed with no search under way. -/
theorem Inv.not_started_of_command (h : Inv s) {w : Word} {i : Instr} (hp : s.pend = some w) (hd : decode w = .ok i)
    (hi : i ∉ searchCommands) : s.srch.started = false := by
  by_contra hs
  obtain ⟨⟨w', hw', hd'⟩, -⟩ := h.searchStarted (by simpa using hs)
  obtain rfl : w = w' := Option.some.inj (hp.symm.trans hw')
  obtain rfl : i = _ := Except.ok.inj (hd.symm.trans hd')
  exact hi (searchCommand_mem _ _)

theorem Inv.idle_of_faulted (h : Inv s) (hf : s.fault = true) : s.pend = none ∧ s.busy = false :=
  ⟨h.faultStops hf, by rw [h.busyPending, h.faultStops hf]; rfl⟩

theorem Inv.idle_of_not_busy (h : Inv s) (hb : s.busy = false) : s.pend = none := by
  simpa [h.busyPending] using hb

theorem Inv.complete (h : Inv s) (hs : s.srch.started = false) : Inv s.complete :=
  ⟨h.bufCanonical, rfl, h.fcodeZero, h.fcodeListed, fun _ => rfl, fun hs' => by simp [hs] at hs', h.absentSlots⟩

theorem Inv.endSearch (h : Inv s) (found : Bool) : Inv (s.endSearch found) :=
  ⟨h.bufCanonical, rfl, h.fcodeZero, h.fcodeListed, fun _ => rfl, fun hs => by simp at hs, h.absentSlots⟩

theorem Inv.issue (h : Inv s) (hb : s.busy = false) (hf : s.fault = false) (w : Word) : Inv (s.issue w) := by
  have hs := h.not_started_of_idle (h.idle_of_not_busy hb)
  exact ⟨h.bufCanonical, rfl, h.fcodeZero, h.fcodeListed, fun hf' => by simp [hf] at hf',
    fun hs' => by simp [hs] at hs', h.absentSlots⟩

theorem Inv.faultEntry (h : Inv s) (f : FaultCode) : Inv (s.faultEntry f) := by
  have hf := faultNumber_listed f
  have hcode : (s.faultEntry f).fcode ≠ 0 ∧ (s.faultEntry f).fcode.toNat ≤ 9 := by
    rw [State.faultEntry_fcode]
    split
    · exact ⟨fun e => absurd (h.fcodeZero.1 e) (by simp [‹s.fault = true›]), h.fcodeListed⟩
    · exact ⟨fun e => by simp [e] at hf, hf.2⟩
  exact ⟨h.bufCanonical, rfl, iff_of_false hcode.1 (by simp), hcode.2, fun _ => rfl, fun hs => by simp at hs, h.absentSlots⟩

theorem slot_reset (k : BitVec 4) : State.reset.slot k = Ctx.atReset := by
  simp only [State.slot, State.reset, Vector.getElem_mk, List.getElem_toArray, List.getElem_replicate]

theorem inv_reset : Inv State.reset :=
  ⟨reset_buf_wf _, rfl, by decide, by decide, by decide, fun hs => by simp [State.reset, Srch.atReset] at hs,
    fun k _ => slot_reset k⟩

/-- A host reset differs from `State.reset` in the model's own fields only. -/
theorem inv_hostReset (s : State) : Inv s.hostReset :=
  ⟨inv_reset.bufCanonical, inv_reset.busyPending, inv_reset.fcodeZero, inv_reset.fcodeListed, inv_reset.faultStops,
    inv_reset.searchStarted, inv_reset.absentSlots⟩

/-! ### Every command and every step -/

/-- The pending command keeps the invariant: it faults, completes with no search under way, or is a SEARCH. -/
theorem Inv.effect {i : Instr} {t : State} (h : Inv s) (e : Effect s i t) {w : Word} (hp : s.pend = some w)
    (hd : decode w = .ok i) : Inv t := by
  have hns := h.not_started_of_command hp hd
  cases e with
  | fault _ f => exact h.faultEntry f
  | slot hi hk c => exact (h.setSlot hk c).complete (hns (by rcases hi with rfl | rfl <;> simp [searchCommands]))
  | final hk a d c => exact ((h.memWrite a d).setSlot hk c).complete (hns (by simp [searchCommands]))
  | digest a d => exact (h.memWrite a d).complete (hns (by decide))
  | perm v => exact (h.setResult v).complete (hns (by decide))
  | midstate m => exact (h.setMidstate m).complete (hns (by decide))
  | chain hi a d v => exact ((h.memWrite a d).setResult v).complete (hns (chainCommand_not_search _ hi))
  | test hi a b n d v =>
    exact (((h.memWrite a n).memWrite b d).setResult v).complete (hns (testCommand_not_search _ hi))
  | start sel mid hm hr => exact h.setSrch fun _ => ⟨⟨w, hp, hd⟩, hr, hm⟩
  | attempt => exact h.nextNonce
  | finish _ _ found d => exact (h.nextNonce.memWrite _ d).endSearch found

theorem Inv.engineStep {t : State} (h : Inv s) (e : engineStep s = .next t) : Inv t := by
  obtain ⟨-, rfl⟩ | ⟨w, f, -, -, rfl⟩ | ⟨w, i, hp, hd, he⟩ := engineStep_cases e
  · exact h
  · exact h.faultEntry f
  · exact h.effect (exec_effect he) hp hd

theorem Inv.hostStep {t : State} {hs : HostStep} (h : Inv s) (e : hostStep Config.chip hs s = .next t) : Inv t := by
  obtain ⟨-, rfl⟩ | ⟨v, rfl⟩ | ⟨-, f, rfl⟩ | rfl | ⟨hb, hf, w, rfl⟩ | ⟨-, i, v, rfl⟩ | ⟨v, rfl⟩ | ⟨-, a, bs, rfl⟩ :=
    hostStep_cases e
  · exact inv_hostReset s
  · exact h.observe v
  · exact h.faultEntry f
  · exact h
  · exact h.issue hb hf w
  · exact h.setArg i v
  · exact h.setCancel v
  · exact h.memWrite a bs

theorem Inv.step {t : State} (h : Inv s) (e : step s = .next t) : Inv t := by
  obtain ⟨-, e⟩ | ⟨-, -, e⟩ | ⟨hs, -, -, e⟩ := step_cases e
  · exact h.engineStep e
  · exact h.dropTurn.engineStep e
  · exact h.dropTurn.hostStep e

/-- Settles O59: the reset state meets the invariant. -/
theorem resetMeetsTheInvariant : Obligations.ResetMeetsTheInvariant := inv_reset

/-- Settles O60: the engine's step through the effect of the pending command, the host's through its accesses. -/
theorem everyStepKeepsTheInvariant : Obligations.EveryStepKeepsTheInvariant := fun _ _ h e => h.step e

end Sys2Proof

/-!
SUPPORT. What no command writes, and what a faulted block keeps (spec/10_state.md R25-R31, spec/60_exceptions.md R225, R226).
-/

namespace Sys2Proof.Machine

variable {s t : State} {i : Instr}

/-! ### The registers each class of commands leaves -/

theorem Effect.host_fields (e : Effect s i t) :
    t.arg0 = s.arg0 ∧ t.arg1 = s.arg1 ∧ t.arg2 = s.arg2 ∧ t.arg3 = s.arg3 ∧ t.cancel = s.cancel ∧
      t.agenda = s.agenda ∧ t.observed = s.observed ∧ t.epoch = s.epoch ∧ t.draws = s.draws := by
  cases e <;> exact ⟨rfl, rfl, rfl, rfl, rfl, rfl, rfl, rfl, rfl⟩

/-- Every command but SEARCH ends in its one step, by completion or by a fault, and leaves FOUND. -/
theorem Effect.completes (e : Effect s i t) (hi : i ∉ searchCommands) :
    t.found = s.found ∧ t.pend = none ∧ t.busy = false := by
  cases e with
  | start sel mid => exact absurd (searchCommand_mem sel mid) hi
  | attempt hi' => exact absurd hi' hi
  | finish hi' => exact absurd hi' hi
  | _ => exact ⟨rfl, rfl, rfl⟩

theorem Effect.ctx (e : Effect s i t) (hi : ∀ k, i ∉ slotCommands k) : t.ctx = s.ctx := by
  cases e with
  | @slot _ k hi' => exact absurd (by simpa [slotCommands, or_assoc] using hi'.imp_right .inl) (hi k)
  | @final k => exact absurd (by simp [slotCommands]) (hi k)
  | _ => rfl

/-- The commands that answer nothing in RESULT: those of the digest primitive, and MIDSTATE. -/
theorem Effect.result (e : Effect s i t) (hc : i ∉ chainCommands) (ht : i ∉ testCommands) (hs : i ∉ searchCommands)
    (hp : i ≠ .permRead) : t.result = s.result := by
  cases e with
  | perm => exact absurd rfl hp
  | chain hi => exact absurd hi hc
  | test hi => exact absurd hi ht
  | finish hi => exact absurd hi hs
  | _ => rfl

/-- Settles O57: each clause is read off the effect of the command. -/
theorem commandsWriteOnlyTheirRegisters : Obligations.CommandsWriteOnlyTheirRegisters := by
  intro i s t h
  have e := exec_effect h
  refine ⟨e.host_fields, e.completes, fun hi => e.ctx fun k => ?_, fun hi => ?_⟩
  · simpa [slotCommands] using hi k
  · obtain ⟨k, hk⟩ | rfl | rfl := hi
    · have hk : i ∈ slotCommands k := by simpa [slotCommands] using hk
      obtain ⟨hc, ht, hs⟩ := slotCommand_not_mem k i hk
      exact e.result hc ht hs (by rintro rfl; simp [slotCommands] at hk)
    · exact e.result (by decide) (by decide) (by decide) (by decide)
    · exact e.result (by decide) (by decide) (by decide) (by decide)

/-! ### The faulted block -/

/-- A command keeps FAULT and FCODE of a faulted block: a further fault keeps the first code (R223). -/
theorem Effect.keeps_fault (e : Effect s i t) (hf : s.fault = true) : t.fault = true ∧ t.fcode = s.fcode := by
  cases e with
  | fault => exact ⟨rfl, if_pos hf⟩
  | _ => exact ⟨hf, rfl⟩

theorem engineStep_keeps_fault (hf : s.fault = true) (h : engineStep s = .next t) :
    t.fault = true ∧ t.fcode = s.fcode := by
  obtain ⟨-, rfl⟩ | ⟨-, f, -, -, rfl⟩ | ⟨-, i, -, -, he⟩ := engineStep_cases h
  · exact ⟨hf, rfl⟩
  · exact ⟨rfl, if_pos hf⟩
  · exact (exec_effect he).keeps_fault hf

theorem hostStep_keeps_fault {hs : HostStep} (hne : hs ≠ .reset) (hf : s.fault = true)
    (h : hostStep Config.chip hs s = .next t) : t.fault = true ∧ t.fcode = s.fcode := by
  obtain ⟨hr, -⟩ | ⟨v, rfl⟩ | ⟨-, f, rfl⟩ | rfl | ⟨-, hf', -⟩ | ⟨-, i, v, rfl⟩ | ⟨v, rfl⟩ | ⟨-, a, bs, rfl⟩ :=
    hostStep_cases h
  · exact absurd hr hne
  · exact ⟨hf, rfl⟩
  · exact ⟨rfl, if_pos hf⟩
  · exact ⟨hf, rfl⟩
  · simp [hf] at hf'
  · simp [hf]
  · exact ⟨hf, rfl⟩
  · exact ⟨hf, rfl⟩

/-- The fields of the block that a faulted one keeps, with nothing pending. -/
def StaysStopped (s t : State) : Prop :=
  t.ctx = s.ctx ∧ t.midValid = s.midValid ∧ t.midS = s.midS ∧ t.result = s.result ∧ t.found = s.found ∧
    t.pend = none ∧ t.busy = false

/-- A faulted block that meets the invariant is idle, so the engine's step changes nothing. -/
theorem engineStep_staysStopped (hf : s.fault = true) (hi : Inv s) (h : engineStep s = .next t) : StaysStopped s t := by
  obtain ⟨hp, hb⟩ := hi.idle_of_faulted hf
  obtain ⟨-, rfl⟩ | ⟨w, -, hw, -⟩ | ⟨w, -, hw, -⟩ := engineStep_cases h
  · exact ⟨rfl, rfl, rfl, rfl, rfl, hp, hb⟩
  · simp [hp] at hw
  · simp [hp] at hw

/-- The host still writes ARG, CANCEL and BUF of a faulted block, and no command is issued (R22). -/
theorem hostStep_staysStopped {hs : HostStep} (hne : hs ≠ .reset) (hf : s.fault = true) (hi : Inv s)
    (h : hostStep Config.chip hs s = .next t) : StaysStopped s t := by
  obtain ⟨hp, hb⟩ := hi.idle_of_faulted hf
  obtain ⟨hr, -⟩ | ⟨v, rfl⟩ | ⟨hb', -⟩ | rfl | ⟨-, hf', -⟩ | ⟨-, i, v, rfl⟩ | ⟨v, rfl⟩ | ⟨-, a, bs, rfl⟩ :=
    hostStep_cases h
  · exact absurd hr hne
  · exact ⟨rfl, rfl, rfl, rfl, rfl, hp, hb⟩
  · simp [hb] at hb'
  · exact ⟨rfl, rfl, rfl, rfl, rfl, hp, hb⟩
  · simp [hf] at hf'
  · simp [StaysStopped, hp, hb]
  · exact ⟨rfl, rfl, rfl, rfl, rfl, hp, hb⟩
  · exact ⟨rfl, rfl, rfl, rfl, rfl, hp, hb⟩

/-- Settles O56: by whose turn the step is. -/
theorem onlyResetLeavesTheFaultedState : Obligations.OnlyResetLeavesTheFaultedState := by
  intro s t h hf hne
  obtain ⟨-, e⟩ | ⟨-, -, e⟩ | ⟨hs, rest, ha, e⟩ := step_cases h
  · exact ⟨engineStep_keeps_fault hf e, fun hi => engineStep_staysStopped hf hi e⟩
  · exact ⟨engineStep_keeps_fault (s := s.dropTurn) hf e,
      fun hi => engineStep_staysStopped (s := s.dropTurn) hf hi.dropTurn e⟩
  · have hr : hs ≠ .reset := by rintro rfl; exact hne rest ha
    exact ⟨hostStep_keeps_fault (s := s.dropTurn) hr hf e,
      fun hi => hostStep_staysStopped (s := s.dropTurn) hr hf hi.dropTurn e⟩

end Sys2Proof.Machine

/-!
SUPPORT. What each host access of the right shape answers (spec/10_state.md R21-R32, spec/20_memory.md R67, R68, R72, R78), and the
statements about host accesses and the reset values.
-/

namespace Sys2Proof.Machine

/-! ### Accesses by shape -/

theorem isAlignedWord_iff (width : Width) (off : Nat) :
    isAlignedWord width off = true ↔ width = .word ∧ off % 4 = 0 := by
  simp [isAlignedWord]

@[simp] theorem windowEnd_chip : windowEnd Config.chip = 0x1000 + 4096 := rfl

theorem inside_window {off : Nat} (h : off < 0x1000 + 4096) : ¬ windowEnd Config.chip ≤ off := by
  rw [windowEnd_chip]; omega

/-- The word accesses at an aligned offset below BUF are those of the register there. -/
theorem hostRead_register {off : Nat} (hlt : off < 0x1000) (h4 : off % 4 = 0) (s : State) :
    hostRead Config.chip .word off s = .next (s.observe (s.registerValue Config.chip (regAt off))) := by
  have hend := inside_window (show off < 0x1000 + 4096 by omega)
  rw [hostRead, if_neg hend, if_pos hlt, if_pos ((isAlignedWord_iff _ _).2 ⟨rfl, h4⟩)]

theorem hostWrite_register {off : Nat} (hlt : off < 0x1000) (h4 : off % 4 = 0) (v : Word) (s : State) :
    hostWrite Config.chip .word off v s = .next (s.writeRegister (regAt off) v) := by
  have hend := inside_window (show off < 0x1000 + 4096 by omega)
  rw [hostWrite, if_neg hend, if_pos hlt, if_pos ((isAlignedWord_iff _ _).2 ⟨rfl, h4⟩)]

section BufAccess

variable {a : Nat} (ha : a < 4096) (s : State) (v : Word)

include ha

theorem hostRead_bufByte : hostRead Config.chip .byte (0x1000 + a) s = .next (s.observe (s.bufByteValue a)) := by
  have hend := inside_window (show 0x1000 + a < 0x1000 + 4096 by omega)
  rw [hostRead, if_neg hend, if_neg (by simp), if_pos rfl, Nat.add_sub_cancel_left]

theorem hostRead_bufWord (h4 : a % 4 = 0) :
    hostRead Config.chip .word (0x1000 + a) s = .next (s.observe (s.bufWordValue a)) := by
  have hend := inside_window (show 0x1000 + a < 0x1000 + 4096 by omega)
  rw [hostRead, if_neg hend, if_neg (by simp), if_neg (by simp),
    if_pos ((isAlignedWord_iff _ _).2 ⟨rfl, by omega⟩), Nat.add_sub_cancel_left]

theorem hostWrite_bufByte :
    hostWrite Config.chip .byte (0x1000 + a) v s =
      .next (s.unlessBusy (s.memWrite Config.chip a [v.setWidth 8])) := by
  have hend := inside_window (show 0x1000 + a < 0x1000 + 4096 by omega)
  rw [hostWrite, if_neg hend, if_neg (by simp), if_pos rfl, Nat.add_sub_cancel_left]

theorem hostWrite_bufWord (h4 : a % 4 = 0) :
    hostWrite Config.chip .word (0x1000 + a) v s = .next (s.unlessBusy (s.memWrite Config.chip a (le32 v))) := by
  have hend := inside_window (show 0x1000 + a < 0x1000 + 4096 by omega)
  rw [hostWrite, if_neg hend, if_neg (by simp), if_neg (by simp),
    if_pos ((isAlignedWord_iff _ _).2 ⟨rfl, by omega⟩), Nat.add_sub_cancel_left]

end BufAccess

/-- The ARG registers, by number. -/
theorem regAt_arg (i : Fin 4) : regAt (0x008 + 4 * i.val) = .arg i := by
  fin_cases i <;> rfl

/-- No register stands at or above offset 0x030 (R32). -/
theorem regAt_reserved {off : Nat} (h : 0x030 ≤ off) : regAt off = .reserved := by
  unfold regAt
  split
  on_goal 13 => rfl
  all_goals omega

theorem hostRead_arg (i : Fin 4) (s : State) :
    hostRead Config.chip .word (0x008 + 4 * i.val) s = .next (s.observe (s.arg i)) := by
  rw [hostRead_register (by omega) (by omega), regAt_arg]
  rfl

theorem hostWrite_arg (i : Fin 4) (v : Word) (s : State) :
    hostWrite Config.chip .word (0x008 + 4 * i.val) v s = .next (s.unlessBusy (s.setArg i v)) := by
  rw [hostWrite_register (by omega) (by omega), regAt_arg]
  rfl

theorem unlessBusy_busy {s : State} (hb : s.busy = true) (t : State) : s.unlessBusy t = s.faultEntry .hostConflict :=
  if_pos hb

theorem unlessBusy_idle {s : State} (hb : s.busy = false) (t : State) : s.unlessBusy t = t := by
  simp [State.unlessBusy, hb]

/-! ### Writes -/

/-- A write of an ARG register changes the ARG registers only. -/
theorem setArg_frame (s : State) (i : Fin 4) (v : Word) :
    s.setArg i v = { s with
      arg0 := (s.setArg i v).arg0
      arg1 := (s.setArg i v).arg1
      arg2 := (s.setArg i v).arg2
      arg3 := (s.setArg i v).arg3 } := by
  fin_cases i <;> rfl

theorem byteAt_memWrite_one (s : State) {a : Nat} (ha : a < 4096) (b : Byte) (x : Nat) :
    (s.memWrite Config.chip a [b]).byteAt x = if x = a then b else s.byteAt x := by
  rw [State.byteAt_memWrite]
  by_cases hx : x = a
  · subst hx; simp [ha]
  · rw [if_neg (by simp; omega), if_neg hx]

/-- Settles O48: the conflict and the landing are the two cases of `unlessBusy`. -/
theorem argAndBufWritesConflictWhileBusy : Obligations.ArgAndBufWritesConflictWhileBusy := by
  intro s v
  refine ⟨fun i => ?_, fun a ha => ?_, hostWrite_register (by decide) (by decide) v s, fun width off t h => ?_⟩
  · rw [hostWrite_arg]
    refine ⟨fun hb => by rw [unlessBusy_busy hb], fun hb => ?_⟩
    rw [unlessBusy_idle hb]
    exact ⟨_, rfl, fun j => s.arg_setArg i j v, setArg_frame s i v⟩
  · rw [hostWrite_bufByte ha]
    refine ⟨fun hb => by rw [unlessBusy_busy hb], fun hb h4 => ?_, fun hb => ?_⟩
    · rw [hostWrite_bufWord ha s v h4, unlessBusy_busy hb]
    · rw [unlessBusy_idle hb]
      exact ⟨_, rfl, byteAt_memWrite_one s ha _, rfl⟩
  · obtain ⟨w, rfl⟩ := hostRead_cases h
    exact ⟨rfl, rfl, rfl, rfl⟩

/-- A host turn at an offset of the window, on the state with the turn taken off. -/
theorem step_host {s : State} {hs : HostStep} {rest : List Turn} (ha : s.agenda = .host hs :: rest) :
    step s = hostStep Config.chip hs { s with agenda := rest } := by
  simp [step, takeTurn, State.dropTurn, ha]

/-- Settles O47: the three cases of a CMD write, and the register's value. -/
theorem cmdWriteIssuesFaultsOrIsIgnored : Obligations.CmdWriteIssuesFaultsOrIsIgnored := by
  intro s w rest
  refine ⟨fun ha => ?_, fun ha => ?_⟩
  · have hstep : step s = .next (({ s with agenda := rest } : State).writeCmd w) := by
      rw [step_host ha, hostStep, atAddress_base, hostWrite_register (by decide) (by decide)]
      rfl
    rw [hstep]
    exact ⟨fun hb hf => by simp [State.writeCmd, State.issue, hb, hf], fun hb _ => by simp [State.writeCmd, hb],
      fun hb hf => by simp [State.writeCmd, hb, hf]⟩
  · rw [step_host ha, hostStep, atAddress_base, hostRead_register (by decide) (by decide)]
    rfl

/-! ### Shapes -/

/-- Inside the window a read and a write are refused alike: exactly by their shape (R68). -/
theorem shape_refused_iff (width : Width) (off : Nat) (x y z : State) :
    (if off < bufOffset then
        if isAlignedWord width off then Host.Outcome.next x else .refused Refusal.hostAccessShape
      else if width = .byte then .next y
      else if isAlignedWord width off then .next z
      else .refused .hostAccessShape : Host.Outcome State Fault Refusal) = .refused .hostAccessShape ↔
    ¬ ((width = .word ∧ off % 4 = 0) ∨ (width = .byte ∧ 0x1000 ≤ off)) := by
  rw [← isAlignedWord_iff]
  by_cases hw : isAlignedWord width off = true
  · by_cases hreg : off < bufOffset <;> by_cases hbyte : width = .byte <;> simp [hw, hreg, hbyte]
  · by_cases hreg : off < bufOffset
    · simp [hw, hreg]
    · simp [hw, hreg, Nat.not_lt.1 hreg]

theorem hostRead_refused_iff {off : Nat} (hlt : off < 0x1000 + 4096) (width : Width) (s : State) :
    hostRead Config.chip width off s = .refused .hostAccessShape ↔
      ¬ ((width = .word ∧ off % 4 = 0) ∨ (width = .byte ∧ 0x1000 ≤ off)) := by
  rw [hostRead, if_neg (inside_window hlt)]
  exact shape_refused_iff width off _ _ _

theorem hostWrite_refused_iff {off : Nat} (hlt : off < 0x1000 + 4096) (width : Width) (v : Word) (s : State) :
    hostWrite Config.chip width off v s = .refused .hostAccessShape ↔
      ¬ ((width = .word ∧ off % 4 = 0) ∨ (width = .byte ∧ 0x1000 ≤ off)) := by
  rw [hostWrite, if_neg (inside_window hlt)]
  exact shape_refused_iff width off _ _ _

theorem atAddress_below {cfg : Config} {addr : Nat} (h : addr < cfg.hcBase)
    (access : Nat → Host.Outcome State Fault Refusal) : atAddress cfg addr access = .fault .outsideBlock :=
  if_neg (by omega)

/-- Settles O50: the window's two edges, and the shape inside it. -/
theorem hostAccessShapes : Obligations.HostAccessShapes := by
  refine ⟨Nat.mod_eq_zero_of_dvd chip_wellFormed.hcBase, fun s width off v => ⟨?_, fun h => ?_, fun h => ?_, fun h => ?_⟩⟩
  · exact ⟨by rw [hostStep, atAddress_base], by rw [hostStep, atAddress_base]⟩
  · exact ⟨by rw [hostStep, atAddress_below h], by rw [hostStep, atAddress_below h]⟩
  · have hend : windowEnd Config.chip ≤ off := by rwa [windowEnd_chip]
    exact ⟨by rw [hostRead, if_pos hend], by rw [hostWrite, if_pos hend]⟩
  · exact ⟨hostRead_refused_iff h width s, hostWrite_refused_iff h width v s⟩

/-! ### Reads -/

/-- Settles O51: a read records one word. -/
theorem hostReadsHaveNoSideEffect : Obligations.HostReadsHaveNoSideEffect := by
  intro s t width off h
  obtain ⟨v, rfl⟩ := hostRead_cases h
  exact ⟨rfl, rfl⟩

/-- Settles O52: while BUSY each read is the draw of the counter it advances. -/
theorem readsWhileBusyAreDraws : Obligations.ReadsWhileBusyAreDraws := by
  intro s a ha
  refine ⟨fun hb => ⟨?_, ?_, fun h4 => ?_⟩, fun hb => ?_⟩
  · rw [hostRead_register (by decide) (by decide)]
    simp [regAt, State.registerValue, hb]
  · simp [hostRead_bufByte ha, State.bufByteValue, hb]
  · refine ⟨_, _, hostRead_bufWord ha s h4, hostRead_bufWord ha _ h4, ?_⟩
    simp [State.bufWordValue, hb]
  · simp [hostRead_bufByte ha, State.bufByteValue, hb]

/-- Appending bits below a word shifts it and adds them. -/
theorem toNat_append_add {m n : Nat} (x : BitVec m) (y : BitVec n) : (x ++ y).toNat = x.toNat * 2 ^ n + y.toNat := by
  rw [BitVec.toNat_append, ← Nat.shiftLeft_add_eq_or_of_lt y.isLt, Nat.shiftLeft_eq]

/-- STATUS as a number (R23). -/
theorem statusWord_toNat (s : State) :
    s.statusWord.toNat =
      s.busy.toNat + 2 * s.fault.toNat + 4 * s.found.toNat + 8 * s.midValid.toNat + 256 * s.fcode.toNat := by
  simp only [State.statusWord, toNat_append_add, BitVec.toNat_ofBool, BitVec.toNat_ofNat]
  omega

theorem hostRead_register_observed {off : Nat} (hlt : off < 0x1000) (h4 : off % 4 = 0) (s : State) :
    ∃ t, hostRead Config.chip .word off s = .next t ∧
      t.observed = s.registerValue Config.chip (regAt off) :: s.observed :=
  ⟨_, hostRead_register hlt h4 s, rfl⟩

/-- Settles O53: each read is its register's value, and the registers that take no write leave the state. -/
theorem registersReadAsTheirRulesSay : Obligations.RegistersReadAsTheirRulesSay := by
  intro s
  refine ⟨hostRead_register_observed (by decide) (by decide) s, statusWord_toNat s,
    fun i => ⟨_, hostRead_arg i s, rfl⟩, fun hb => ?_, ?_, hostRead_register_observed (by decide) (by decide) s,
    hostRead_register_observed (by decide) (by decide) s, hostRead_register_observed (by decide) (by decide) s,
    hostRead_register_observed (by decide) (by decide) s, fun v off hoff => ?_, fun off v h30 hlt h4 => ⟨?_, ?_⟩⟩
  · have hread := hostRead_register_observed (off := 0x018) (by decide) (by decide) s
    simpa [regAt, State.registerValue, hb] using hread
  · have hread := hostRead_register_observed (off := 0x01C) (by decide) (by decide) s
    cases hc : s.cancel <;> simpa [regAt, State.registerValue, hc] using hread
  · simp only [List.mem_cons, List.not_mem_nil, or_false] at hoff
    obtain rfl | rfl | rfl | rfl | rfl | rfl := hoff <;> exact hostWrite_register (by decide) (by decide) v s
  · have hread := hostRead_register_observed hlt h4 s
    rwa [regAt_reserved h30] at hread
  · rw [hostWrite_register hlt h4, regAt_reserved h30]
    rfl

/-! ### Reset values -/

/-- Settles O54: read off `State.reset`; every slot is the reset slot. -/
theorem resetLeavesTheStatedValues : Obligations.ResetLeavesTheStatedValues :=
  ⟨rfl, rfl, rfl, rfl, rfl, rfl, rfl, fun k => by rw [slot_reset]; rfl, rfl, rfl, rfl, rfl, rfl, rfl, rfl, fun _ => rfl⟩

end Sys2Proof.Machine

/-!
SUPPORT. ABSORB as a fold of COMPRESS over the buffered bytes and the new ones (spec/40_digest.md R136, R138, R139).
-/

namespace Sys2Proof.Machine

/-- `t` is `c` after ABSORB has consumed the bytes `m`, which begin with those `c` buffered: whole blocks are compressed and
counted, the rest is buffered. -/
structure Absorbed (c : Ctx) (m : Bytes) (t : Ctx) : Prop where
  v       : t.v = foldBlocks c.v m (m.length / 64)
  nblocks : t.nblocks = c.nblocks + BitVec.ofNat 32 (m.length / 64)
  num     : t.num.toNat = m.length % 64
  blk     : t.blk.toList.take (m.length % 64) = m.drop (64 * (m.length / 64))
  st      : t.st = c.st

variable {c t : Ctx} {m s : Bytes}

/-- The first block of a fold is compressed first. -/
theorem foldBlocks_succ (v : Chaining) (m : Bytes) (q : Nat) :
    foldBlocks v m (q + 1) = foldBlocks (compress v (m.take 64)) (m.drop 64) q := by
  simp only [foldBlocks, List.range_succ_eq_map, List.foldl_cons, List.foldl_map, slice, List.drop_drop, Nat.mul_zero,
    List.drop_zero, Nat.succ_eq_add_one, Nat.mul_add, Nat.mul_one, Nat.add_comm 64]

/-- Less than a block is only buffered. -/
theorem absorbed_of_short (hm : m.length < 64) (hv : t.v = c.v) (hn : t.nblocks = c.nblocks)
    (hnum : t.num = BitVec.ofNat 6 m.length) (hblk : t.blk.toList.take m.length = m) (hst : t.st = c.st) :
    Absorbed c m t := by
  have hq : m.length / 64 = 0 := Nat.div_eq_of_lt hm
  have hr : m.length % 64 = m.length := Nat.mod_eq_of_lt hm
  refine ⟨?_, ?_, ?_, ?_, hst⟩
  · rw [hq, hv]; rfl
  · simp [hq, hn]
  · simp [hnum]
  · simpa [hq, hr] using hblk

/-- A whole block is compressed, counted, and what follows it is absorbed after it. -/
theorem absorbed_of_block (hm : 64 ≤ m.length) (h : Absorbed (c.absorbBlock Config.chip (m.take 64)) (m.drop 64) t) :
    Absorbed c m t := by
  have hlen : m.length = (m.drop 64).length + 64 := by simp; omega
  have hq : m.length / 64 = (m.drop 64).length / 64 + 1 := by omega
  have hr : m.length % 64 = (m.drop 64).length % 64 := by omega
  refine ⟨?_, ?_, ?_, ?_, ?_⟩
  · rw [hq, foldBlocks_succ, h.v, absorbBlock_v]
  · rw [hq, h.nblocks, absorbBlock_nblocks, countBlock_chip, BitVec.ofNat_add, add_assoc, add_comm 1]
    rfl
  · rw [hr, h.num]
  · rw [hq, hr, h.blk, List.drop_drop, Nat.mul_add, Nat.add_comm]
  · rw [h.st, absorbBlock_st]

theorem absorbAligned_short (hs : s.length < 64) (c : Ctx) :
    c.absorbAligned Config.chip s =
      { c with blk := patchBlock c.blk 0 s, num := BitVec.ofNat 6 s.length } := by
  rw [Ctx.absorbAligned, Nat.div_eq_of_lt hs]
  rfl

theorem absorbAligned_block (hs : 64 ≤ s.length) (c : Ctx) :
    c.absorbAligned Config.chip s =
      (c.absorbBlock Config.chip (s.take 64)).absorbAligned Config.chip (s.drop 64) := by
  have hq : s.length / 64 = (s.drop 64).length / 64 + 1 := by simp; omega
  rw [Ctx.absorbAligned, Ctx.absorbAligned, hq, Ctx.absorbBlocks]

/-- ABSORB from a block boundary, block by block. -/
theorem absorbAligned_absorbed (c : Ctx) (s : Bytes) : Absorbed c s (c.absorbAligned Config.chip s) := by
  by_cases hs : s.length < 64
  · rw [absorbAligned_short hs]
    refine absorbed_of_short hs rfl rfl rfl ?_ rfl
    simpa using patchBlock_take (blk := c.blk) (pos := 0) (s := s) (by omega)
  · have hs : 64 ≤ s.length := Nat.not_lt.1 hs
    rw [absorbAligned_block hs]
    exact absorbed_of_block hs (absorbAligned_absorbed _ _)
  termination_by s.length
  decreasing_by simp; omega

/-- The bytes a context has buffered. -/
def Ctx.buffered (c : Ctx) : Bytes := c.blk.toList.take c.num.toNat

@[simp] theorem buffered_length (c : Ctx) : c.buffered.length = c.num.toNat := by
  simp [Ctx.buffered]; omega

theorem absorb_of_empty (h0 : c.num.toNat = 0) (s : Bytes) :
    c.absorb Config.chip s = c.absorbAligned Config.chip s := by
  rw [Ctx.absorb, if_neg (by omega)]

theorem absorb_of_short (h0 : 0 < c.num.toNat) (hs : s.length < 64 - c.num.toNat) :
    c.absorb Config.chip s =
      { c with blk := patchBlock c.blk c.num.toNat s, num := BitVec.ofNat 6 (c.num.toNat + s.length) } := by
  rw [Ctx.absorb, if_pos h0, if_pos hs]

/-- The buffered block is filled to the first 64 bytes of what is absorbed, and compressed. -/
theorem absorb_of_fill (h0 : 0 < c.num.toNat) (hs : 64 - c.num.toNat ≤ s.length) :
    c.absorb Config.chip s =
      (Ctx.absorbBlock Config.chip { c with blk := patchBlock c.blk c.num.toNat (s.take (64 - c.num.toNat)) }
        ((c.buffered ++ s).take 64)).absorbAligned Config.chip ((c.buffered ++ s).drop 64) := by
  have hnum : c.num.toNat < 64 := c.num.isLt
  have hfull : (patchBlock c.blk c.num.toNat (s.take (64 - c.num.toNat))).toList = (c.buffered ++ s).take 64 := by
    rw [patchBlock_toList (by simp; omega), List.take_append, buffered_length,
      List.take_of_length_le (l := c.buffered) (by simp; omega), Ctx.buffered]
    simp; omega
  have hrest : s.drop (64 - c.num.toNat) = (c.buffered ++ s).drop 64 := by
    rw [List.drop_append, buffered_length, List.drop_of_length_le (l := c.buffered) (by simp; omega), List.nil_append]
  rw [Ctx.absorb, if_pos h0, if_neg (by omega), ← hfull, ← hrest]

/-- ABSORB, from any context: the buffered bytes come first (R138). -/
theorem absorb_absorbed (c : Ctx) (s : Bytes) : Absorbed c (c.buffered ++ s) (c.absorb Config.chip s) := by
  have hnum : c.num.toNat < 64 := c.num.isLt
  obtain h0 | h0 := Nat.eq_zero_or_pos c.num.toNat
  · have hnil : c.buffered = [] := List.length_eq_zero_iff.1 (by rw [buffered_length, h0])
    rw [absorb_of_empty h0, hnil]
    exact absorbAligned_absorbed c s
  obtain hs | hs := Nat.lt_or_ge s.length (64 - c.num.toNat)
  · rw [absorb_of_short h0 hs]
    refine absorbed_of_short (by simp; omega) rfl rfl (by simp) ?_ rfl
    rw [List.length_append, buffered_length]
    exact patchBlock_take (by omega)
  · rw [absorb_of_fill h0 hs]
    have h := absorbed_of_block (m := c.buffered ++ s) (by simp; omega) (absorbAligned_absorbed
      (Ctx.absorbBlock Config.chip { c with blk := patchBlock c.blk c.num.toNat (s.take (64 - c.num.toNat)) }
        ((c.buffered ++ s).take 64)) ((c.buffered ++ s).drop 64))
    exact ⟨h.v, h.nblocks, h.num, h.blk, h.st⟩

/-- Settles O13: by blocks, from the buffered bytes on. -/
theorem absorbCompressesWholeBlocksAndBuffersTheRest : Obligations.AbsorbCompressesWholeBlocksAndBuffersTheRest := by
  rintro c s m rfl
  obtain ⟨hv, hnblocks, hnum, hblk, hst⟩ := absorb_absorbed c s
  exact ⟨hv, hnblocks, hnum, hblk, hst⟩

end Sys2Proof.Machine

/-!
SUPPORT. The statements about BUF and about whose turn comes next (spec/20_memory.md R62, R64, R65, R67, R75, R76).
-/

namespace Sys2Proof.Machine

/-! ### Byte order -/

/-- `LE32` of `le32(w)` is `w` (spec/00_scope.md R15). -/
@[simp] theorem readLE32_le32 (w : Word) : readLE32 (le32 w) 0 = w := by
  simp only [readLE32, le32, Nat.zero_add, List.getD_cons_succ, List.getD_cons_zero]
  refine BitVec.eq_of_toNat_eq ?_
  simp only [toNat_append_add, BitVec.extractLsb'_toNat, Nat.shiftRight_eq_div_pow]
  omega

/-! ### BUF -/

/-- Settles O45: `InRange` compares natural numbers. -/
theorem rangesAreCheckedWithoutWrap : Obligations.RangesAreCheckedWithoutWrap :=
  ⟨fun cfg a n => ⟨inRange_iff cfg a n, inRange_iff cfg a 0⟩, chip_bufSize⟩

/-- A byte of the range written, in a range that is in range. -/
theorem State.byteAt_memWrite_inside (s : State) {cfg : Config} {a i : Nat} {bs : Bytes}
    (hrange : a + bs.length ≤ cfg.bufSize) (hi : i < bs.length) :
    (s.memWrite cfg a bs).byteAt (a + i) = bs.getD i 0 := by
  rw [State.byteAt_memWrite, if_pos (by omega), Nat.add_sub_cancel_left]

/-- Settles O46: the two cases of a byte after MemWrite, inside the range and outside it. -/
theorem memWriteSetsItsBytesOnly : Obligations.MemWriteSetsItsBytesOnly := by
  rintro cfg s a n bs hrange rfl
  exact ⟨s.memRead_length a _, s.memRead_getD a _, fun i hi => s.byteAt_memWrite_inside hrange hi,
    fun x hx => s.byteAt_memWrite_outside hx, s.memRead_memWrite cfg a bs hrange⟩

/-- A host word write to BUF while idle lands (R67). -/
theorem hostWrite_bufWord_idle {s : State} {a : Nat} (hb : s.busy = false) (ha : a < 4096) (h4 : a % 4 = 0) (v : Word) :
    hostWrite Config.chip .word (0x1000 + a) v s = .next (s.memWrite Config.chip a (le32 v)) := by
  rw [hostWrite_bufWord ha s v h4, unlessBusy_idle hb]

/-- A host word read of BUF while idle returns the word there (R67). -/
theorem hostRead_bufWord_idle {s : State} {a : Nat} (hb : s.busy = false) (ha : a < 4096) (h4 : a % 4 = 0) :
    hostRead Config.chip .word (0x1000 + a) s = .next (s.observe (readLE32 (s.memRead a 4) 0)) := by
  rw [hostRead_bufWord ha s h4, State.bufWordValue, hb]
  rfl

/-- Settles O49: an aligned word of BUF lies in range, so that MemRead returns the lanes MemWrite set. -/
theorem bufWordAccessesAreLittleEndian : Obligations.BufWordAccessesAreLittleEndian := by
  intro s a v hb h4 ha
  have hlanes : (s.memWrite Config.chip a (le32 v)).memRead a 4 = le32 v :=
    s.memRead_memWrite_same (le32_length v) (by rw [chip_bufSize]; omega)
  have hwrite := hostWrite_bufWord_idle hb ha h4 v
  have hread := hostRead_bufWord_idle (s := s.memWrite Config.chip a (le32 v)) hb ha h4
  rw [hlanes, readLE32_le32] at hread
  exact ⟨⟨_, hwrite, hlanes, fun x hx => s.byteAt_memWrite_outside hx, rfl⟩,
    ⟨_, hostRead_bufWord_idle hb ha h4, rfl⟩, ⟨_, _, hwrite, hread, rfl⟩⟩

/-! ### Turns -/

/-- With an empty agenda the engine moves (log 1). -/
theorem step_of_agenda_nil {s : State} (ha : s.agenda = []) : step s = engineStep s := by
  simp only [step, takeTurn, ha]

/-- An engine turn of the agenda, on the state with the turn taken off. -/
theorem step_engine {s : State} {rest : List Turn} (ha : s.agenda = .engine :: rest) :
    step s = engineStep { s with agenda := rest } := by
  simp only [step, takeTurn, State.dropTurn, ha, List.tail_cons]

theorem engineStep_of_ok {s : State} {w : Word} {i : Instr} (hp : s.pend = some w) (hd : decode w = .ok i) :
    engineStep s = exec i s := by
  simp only [engineStep, hp, performWord_ok hd]

theorem engineStep_of_error {s : State} {w : Word} {f : FaultCode} (hp : s.pend = some w) (hd : decode w = .error f) :
    engineStep s = .next (s.faultEntry f) := by
  simp only [engineStep, hp, performWord_error hd]

theorem engineStep_idle {s : State} (hp : s.pend = none) : engineStep s = .next s := by
  simp only [engineStep, hp]

/-- Settles O6: how the engine's turn comes, and then what the pending word decodes to. -/
theorem engineStepPerformsThePendingWord : Obligations.EngineStepPerformsThePendingWord := by
  refine fun s w hp => ⟨fun i hd => ⟨fun ha => ?_, fun rest ha => ?_⟩, fun f hd => ⟨fun ha => ?_, fun rest ha => ?_⟩⟩
  · exact (step_of_agenda_nil ha).trans (engineStep_of_ok hp hd)
  · exact (step_engine ha).trans (engineStep_of_ok hp hd)
  · exact (step_of_agenda_nil ha).trans (engineStep_of_error hp hd)
  · exact (step_engine ha).trans (engineStep_of_error hp hd)

/-- Settles O7: an idle engine's turn, in both forms, and a host turn. -/
theorem idleEngineAndHostTurns : Obligations.IdleEngineAndHostTurns :=
  ⟨fun _ hp => ⟨step_idle hp, fun _ ha => (step_engine ha).trans (engineStep_idle hp)⟩, fun _ _ _ => step_host⟩

end Sys2Proof.Machine

/-!
SUPPORT. The statements about the encoding (spec/30_encoding.md R90-R96). Over any configuration a word that passes both checks is
the word of a well-formed command, and the decoder reads that word as the command; so the decoder has three answers.
-/

namespace Sys2Proof

open Sys2Proof.Machine

/-! ### The fields of a word (R90) -/

section Fields

variable (w : Word) (opc : BitVec 8) (ctx sel : BitVec 4) (mid : BitVec 1)

/-- `bitsOf` is the number of the extracted field. -/
theorem toNat_extractLsb'_eq_bitsOf (lo n : Nat) : (w.extractLsb' lo n).toNat = bitsOf w lo n := by
  rw [BitVec.extractLsb'_toNat, Nat.shiftRight_eq_div_pow, bitsOf]

theorem extractLsb'_eq_iff_bitsOf (lo : Nat) {n : Nat} (v : BitVec n) : w.extractLsb' lo n = v ↔ bitsOf w lo n = v.toNat := by
  rw [← BitVec.toNat_inj, toNat_extractLsb'_eq_bitsOf]

theorem extractLsb'_mem_iff_bitsOf (lo : Nat) {n : Nat} (l : List (BitVec n)) :
    w.extractLsb' lo n ∈ l ↔ bitsOf w lo n ∈ l.map BitVec.toNat := by
  rw [← toNat_extractLsb'_eq_bitsOf, List.mem_map_of_injective BitVec.toNat_injective]

theorem toNat_commandWord :
    (commandWord opc ctx sel mid).toNat =
      opc.toNat * 2 ^ 24 + ctx.toNat * 2 ^ 20 + sel.toNat * 2 ^ 16 + mid.toNat * 2 ^ 15 := by
  simp only [commandWord, toNat_append_add, BitVec.toNat_ofNat]
  omega

@[simp] theorem opcField_commandWord : opcField (commandWord opc ctx sel mid) = opc := by
  rw [opcField, extractLsb'_eq_iff_bitsOf, bitsOf, toNat_commandWord]
  omega

@[simp] theorem ctxField_commandWord : ctxField (commandWord opc ctx sel mid) = ctx := by
  rw [ctxField, extractLsb'_eq_iff_bitsOf, bitsOf, toNat_commandWord]
  omega

@[simp] theorem selField_commandWord : selField (commandWord opc ctx sel mid) = sel := by
  rw [selField, extractLsb'_eq_iff_bitsOf, bitsOf, toNat_commandWord]
  omega

@[simp] theorem midField_commandWord : midField (commandWord opc ctx sel mid) = mid := by
  rw [midField, extractLsb'_eq_iff_bitsOf, bitsOf, toNat_commandWord]
  omega

@[simp] theorem rsvdField_commandWord : rsvdField (commandWord opc ctx sel mid) = 0#15 := by
  rw [rsvdField, extractLsb'_eq_iff_bitsOf, bitsOf, toNat_commandWord, BitVec.toNat_zero]
  omega

/-- A word whose reserved bits are 0 is its other four fields and nothing else. -/
theorem commandWord_fields {w : Word} (h : rsvdField w = 0#15) :
    commandWord (opcField w) (ctxField w) (selField w) (midField w) = w := by
  rw [rsvdField, extractLsb'_eq_iff_bitsOf, bitsOf, BitVec.toNat_zero] at h
  refine BitVec.eq_of_toNat_eq ?_
  simp only [toNat_commandWord, opcField, ctxField, selField, midField, toNat_extractLsb'_eq_bitsOf, bitsOf]
  omega

end Fields

/-! ### Field legality (R95) -/

section Decoder

variable {cfg : Config} {w : Word}

/-- The seven conditions of R95 as a disjunction. -/
theorem fieldsIllegal_iff (cfg : Config) (w : Word) : fieldsIllegal cfg w = true ↔
    rsvdField w ≠ 0 ∨
    (opcField w ∈ slotOpcodes ∧ ¬ slotExists cfg (ctxField w) = true) ∨
    (opcField w ∉ slotOpcodes ∧ ctxField w ≠ 0) ∨
    (opcField w ∈ selZeroOpcodes ∧ selField w ≠ 0) ∨
    (opcField w ∈ composerOpcodes ∧ 1 < (selField w).toNat) ∨
    (opcField w = 0x12 ∧ selField w ≠ 1) ∨
    (midField w = 1 ∧ ¬ (opcField w ∈ composerOpcodes ∧ selField w = 1)) := by
  simp [fieldsIllegal, fieldConditions, imp_iff_not_or]

/-- The four families of rows of R93, and which of R95's lists their operation codes are in. -/
theorem legalOpcodes_cases : ∀ opc ∈ legalOpcodes,
    (opc ∈ slotOpcodes ∧ opc ∈ selZeroOpcodes ∧ opc ∉ composerOpcodes) ∨
    (opc ∈ [0x04#8, 0x10#8] ∧ opc ∉ slotOpcodes ∧ opc ∈ selZeroOpcodes ∧ opc ∉ composerOpcodes) ∨
    (opc = 0x12#8 ∧ opc ∉ slotOpcodes ∧ opc ∉ composerOpcodes) ∨ (opc ∈ composerOpcodes ∧ opc ∉ slotOpcodes) := by
  decide

/-- The four families of rows of R93: the composer select and the midstate bit that legality leaves each of them. -/
theorem legal_fields_cases (ho : opcField w ∈ legalOpcodes) (hf : ¬ fieldsIllegal cfg w = true) :
    rsvdField w = 0 ∧
    ((opcField w ∈ slotOpcodes ∧ slotExists cfg (ctxField w) = true ∧ selField w = 0 ∧ midField w = 0) ∨
     (opcField w ∈ [0x04#8, 0x10#8] ∧ ctxField w = 0 ∧ selField w = 0 ∧ midField w = 0) ∨
     (opcField w = 0x12 ∧ ctxField w = 0 ∧ selField w = 1 ∧ midField w = 0) ∨
     (opcField w ∈ composerOpcodes ∧ ctxField w = 0 ∧
       (selField w = 0 ∧ midField w = 0 ∨ selField w = 1 ∧ midField w = 0 ∨ selField w = 1 ∧ midField w = 1))) := by
  simp only [fieldsIllegal_iff, not_or, not_and, Classical.not_imp, ne_eq, not_not, not_lt] at hf
  obtain ⟨hr, hslot, hctx, hzero, hsel, hmidstate, hmid⟩ := hf
  have hm0 (hc : opcField w ∉ composerOpcodes) : midField w = 0 :=
    (midField w).eq_zero_or_eq_one.resolve_right fun h => hc (hmid h).1
  refine ⟨hr, ?_⟩
  rcases legalOpcodes_cases _ ho with ⟨hs, hz, hc⟩ | ⟨hp, hs, hz, hc⟩ | ⟨hopc, hs, hc⟩ | ⟨hc, hs⟩
  · exact .inl ⟨hs, hslot hs, hzero hz, hm0 hc⟩
  · exact .inr (.inl ⟨hp, hctx hs, hzero hz, hm0 hc⟩)
  · exact .inr (.inr (.inl ⟨hopc, hctx hs, hmidstate hopc, hm0 hc⟩))
  · refine .inr (.inr (.inr ⟨hc, hctx hs, ?_⟩))
    rcases (midField w).eq_zero_or_eq_one with hm | hm
    · rcases Nat.le_one_iff_eq_zero_or_eq_one.1 (hsel hc) with h | h
      · exact .inl ⟨BitVec.eq_of_toNat_eq h, hm⟩
      · exact .inr (.inl ⟨BitVec.eq_of_toNat_eq h, hm⟩)
    · exact .inr (.inr ⟨(hmid hm).2, hm⟩)

/-- The rows of a composer operation: A, B, and B with the midstate. -/
theorem exists_encode_of_composer_rows {opc : BitVec 8} {sel : BitVec 4} {mid : BitVec 1} (a b bMid : Instr)
    (ha : a.WellFormedFor cfg = true ∧ encode a = commandWord opc 0 0 0)
    (hb : b.WellFormedFor cfg = true ∧ encode b = commandWord opc 0 1 0)
    (hbMid : bMid.WellFormedFor cfg = true ∧ encode bMid = commandWord opc 0 1 1)
    (h : sel = 0 ∧ mid = 0 ∨ sel = 1 ∧ mid = 0 ∨ sel = 1 ∧ mid = 1) :
    ∃ i : Instr, i.WellFormedFor cfg = true ∧ encode i = commandWord opc 0 sel mid := by
  rcases h with ⟨rfl, rfl⟩ | ⟨rfl, rfl⟩ | ⟨rfl, rfl⟩
  exacts [⟨a, ha⟩, ⟨b, hb⟩, ⟨bMid, hbMid⟩]

/-- A word that passes both checks is in a row of R93. -/
theorem exists_encode_of_legal (ho : opcField w ∈ legalOpcodes) (hf : ¬ fieldsIllegal cfg w = true) :
    ∃ i : Instr, i.WellFormedFor cfg = true ∧ encode i = w := by
  obtain ⟨hr, hrow⟩ := legal_fields_cases ho hf
  rw [← commandWord_fields hr]
  rcases hrow with ⟨hslot, hc, hs, hm⟩ | ⟨hplain, hc, hs, hm⟩ | ⟨hmidstate, hc, hs, hm⟩ | ⟨hcomposer, hc, hsm⟩
  · rw [hs, hm]
    simp only [slotOpcodes, List.mem_cons, List.not_mem_nil, or_false] at hslot
    rcases hslot with h | h | h <;> rw [h]
    exacts [⟨.dgInit _, hc, rfl⟩, ⟨.dgAbsorb _, hc, rfl⟩, ⟨.dgFinal _, hc, rfl⟩]
  · rw [hc, hs, hm]
    simp only [List.mem_cons, List.not_mem_nil, or_false] at hplain
    rcases hplain with h | h <;> rw [h]
    exacts [⟨.dgDigest, rfl, rfl⟩, ⟨.permRead, rfl, rfl⟩]
  · rw [hmidstate, hc, hs, hm]
    exact ⟨.midstateB, rfl, rfl⟩
  · rw [hc]
    simp only [composerOpcodes, List.mem_cons, List.not_mem_nil, or_false] at hcomposer
    rcases hcomposer with h | h | h | h <;> rw [h]
    · exact exists_encode_of_composer_rows .composeA .composeB .composeBMid ⟨rfl, rfl⟩ ⟨rfl, rfl⟩ ⟨rfl, rfl⟩ hsm
    · exact exists_encode_of_composer_rows .testA .testB .testBMid ⟨rfl, rfl⟩ ⟨rfl, rfl⟩ ⟨rfl, rfl⟩ hsm
    · exact exists_encode_of_composer_rows .searchA .searchB .searchBMid ⟨rfl, rfl⟩ ⟨rfl, rfl⟩ ⟨rfl, rfl⟩ hsm
    · exact exists_encode_of_composer_rows .regenA .regenB .regenBMid ⟨rfl, rfl⟩ ⟨rfl, rfl⟩ ⟨rfl, rfl⟩ hsm

/-! ### The decoder's answers (R96) -/

/-- A command's own word passes both checks, and its operation code, SEL and MID select its row. -/
theorem decodeFor_encode {i : Instr} (h : i.WellFormedFor cfg = true) : decodeFor cfg (encode i) = .ok i := by
  cases i with
  | dgInit c | dgAbsorb c | dgFinal c =>
    have hc : slotExists cfg c = true := h
    simp [decodeFor, encode, fieldsIllegal, fieldConditions, legalOpcodes, slotOpcodes, selZeroOpcodes, composerOpcodes,
      hc]
  | _ =>
    simp [decodeFor, encode, fieldsIllegal, fieldConditions, legalOpcodes, slotOpcodes, selZeroOpcodes, composerOpcodes,
      byComposer]

/-- Everything the decoder can answer. -/
theorem decodeFor_cases (cfg : Config) (w : Word) :
    (opcField w ∉ legalOpcodes ∧ decodeFor cfg w = .error .illegalOpcode) ∨
    (opcField w ∈ legalOpcodes ∧ fieldsIllegal cfg w = true ∧ decodeFor cfg w = .error .reservedField) ∨
    (opcField w ∈ legalOpcodes ∧ ¬ fieldsIllegal cfg w = true ∧
      ∃ i : Instr, i.WellFormedFor cfg = true ∧ encode i = w ∧ decodeFor cfg w = .ok i) := by
  by_cases ho : opcField w ∈ legalOpcodes
  · by_cases hf : fieldsIllegal cfg w = true
    · exact .inr (.inl ⟨ho, hf, by simp [decodeFor, ho, hf]⟩)
    · obtain ⟨i, hi, rfl⟩ := exists_encode_of_legal ho hf
      exact .inr (.inr ⟨ho, hf, i, hi, rfl, decodeFor_encode hi⟩)
  · exact .inl ⟨ho, by simp [decodeFor, ho]⟩

theorem decodeFor_eq_ok_iff {i : Instr} : decodeFor cfg w = .ok i ↔ i.WellFormedFor cfg = true ∧ encode i = w := by
  refine ⟨fun h => ?_, fun ⟨hi, hw⟩ => hw ▸ decodeFor_encode hi⟩
  rcases decodeFor_cases cfg w with ⟨-, hd⟩ | ⟨-, -, hd⟩ | ⟨-, -, j, hj, hw, hd⟩
  · simp [hd] at h
  · simp [hd] at h
  · obtain rfl : j = i := Except.ok.inj (hd.symm.trans h)
    exact ⟨hj, hw⟩

theorem decodeFor_eq_illegalOpcode_iff : decodeFor cfg w = .error .illegalOpcode ↔ opcField w ∉ legalOpcodes := by
  rcases decodeFor_cases cfg w with ⟨ho, hd⟩ | ⟨ho, -, hd⟩ | ⟨ho, -, i, -, -, hd⟩ <;> simp [ho, hd]

theorem decodeFor_eq_reservedField_iff :
    decodeFor cfg w = .error .reservedField ↔ opcField w ∈ legalOpcodes ∧ fieldsIllegal cfg w = true := by
  rcases decodeFor_cases cfg w with ⟨ho, hd⟩ | ⟨ho, hf, hd⟩ | ⟨ho, hf, i, -, -, hd⟩ <;> simp [*]

end Decoder

/-! ### The obligations -/

/-- Settles O2: over any configuration `decodeFor_encode`. -/
theorem decodeOfEncodeGivesTheCommand : Obligations.DecodeOfEncodeGivesTheCommand := fun _ h => decodeFor_encode h

/-- Settles O3: the third of the decoder's answers. -/
theorem encodeOfDecodeGivesTheWord : Obligations.EncodeOfDecodeGivesTheWord := fun _ _ => decodeFor_eq_ok_iff.1

/-- Settles O4: the decoder's first answer, with the gaps of the map. -/
theorem illegalOpcodesAreExactlyThoseOutsideTheMap : Obligations.IllegalOpcodesAreExactlyThoseOutsideTheMap := by
  refine fun w => ⟨decodeFor_eq_illegalOpcode_iff.trans ?_, fun s hd => performWord_error hd s⟩
  rw [opcField, extractLsb'_mem_iff_bitsOf]
  simp only [legalOpcodes, List.map_cons, List.map_nil, List.mem_cons, List.not_mem_nil, or_false, not_or,
    BitVec.reduceToNat]
  omega

/-- Settles O5: the decoder's second answer; what it does not refuse it reads as the one command with that word. -/
theorem reservedFieldIsRaisedExactlyUnderTheSevenConditions :
    Obligations.ReservedFieldIsRaisedExactlyUnderTheSevenConditions := by
  intro w hopc
  have ho : opcField w ∈ legalOpcodes := (extractLsb'_mem_iff_bitsOf w 24 legalOpcodes).2 hopc
  have href : decode w = .error .reservedField ↔ fieldsIllegal Config.chip w = true :=
    decodeFor_eq_reservedField_iff.trans (and_iff_right ho)
  refine ⟨href.trans ?_, fun hd => ?_, fun s hd => performWord_error hd s⟩
  · simp only [fieldsIllegal_iff, slotExists_iff, chip_nctx, Nat.not_lt, opcField, ctxField, selField, midField, rsvdField,
      ne_eq, extractLsb'_mem_iff_bitsOf, extractLsb'_eq_iff_bitsOf, toNat_extractLsb'_eq_bitsOf]
    rfl
  · obtain ⟨i, hi, hw⟩ := exists_encode_of_legal ho (hd ∘ href.2)
    exact ⟨i, ⟨hi, hw⟩,
      fun j hj => Except.ok.inj ((decodeFor_eq_ok_iff.2 hj).symm.trans (decodeFor_eq_ok_iff.2 ⟨hi, hw⟩))⟩

/-- Settles O1: one word of each row, run. -/
theorem opcodeMapWordsDecode : Obligations.OpcodeMapWordsDecode := by
  unfold Obligations.OpcodeMapWordsDecode
  decide

end Sys2Proof

/-!
SUPPORT. The digest of a byte string: the length field, the padded tail FINAL compresses, and the streamed digest as the fold of
COMPRESS over the padded message (spec/40_digest.md R128, R138-R144, R146, R150).
-/

namespace Sys2Proof.Machine

/-! ### Folds over concatenations -/

/-- No block leaves the chaining state. -/
theorem foldBlocks_zero (v : Chaining) (m : Bytes) : foldBlocks v m 0 = v := rfl

/-- A fold over `p + q` blocks is the fold over the first `p`, then over `q` blocks of what follows them. -/
theorem foldBlocks_add (v : Chaining) (m : Bytes) (p q : Nat) :
    foldBlocks v m (p + q) = foldBlocks (foldBlocks v m p) (m.drop (64 * p)) q := by
  induction p generalizing v m with
  | zero => simp [foldBlocks_zero]
  | succ p ih => rw [Nat.succ_add, foldBlocks_succ, foldBlocks_succ, ih, List.drop_drop, Nat.mul_succ, Nat.add_comm 64]

/-- A fold does not see what stands behind its blocks. -/
theorem foldBlocks_append_of_le {m : Bytes} {q : Nat} (h : 64 * q ≤ m.length) (v : Chaining) (s : Bytes) :
    foldBlocks v (m ++ s) q = foldBlocks v m q := by
  induction q generalizing v m with
  | zero => rw [foldBlocks_zero, foldBlocks_zero]
  | succ q ih =>
    rw [foldBlocks_succ, foldBlocks_succ, List.take_append_of_le_length (by omega),
      List.drop_append_of_le_length (by omega), ih (by simp; omega)]

/-- The bytes of `m` past its whole blocks. -/
def partialBlock (m : Bytes) : Bytes := m.drop (64 * (m.length / 64))

theorem partialBlock_length (m : Bytes) : (partialBlock m).length = m.length % 64 := by
  simp [partialBlock]; omega

/-- The whole blocks of `m ++ s` are those of `m`, then those of `m`'s partial block followed by `s`. -/
theorem blocks_append (m s : Bytes) :
    (m ++ s).length / 64 = m.length / 64 + (partialBlock m ++ s).length / 64 := by
  simp only [List.length_append, partialBlock_length]
  omega

theorem drop_blocks_append (m s : Bytes) : (m ++ s).drop (64 * (m.length / 64)) = partialBlock m ++ s :=
  List.drop_append_of_le_length (by omega)

theorem partialBlock_append (m s : Bytes) : partialBlock (partialBlock m ++ s) = partialBlock (m ++ s) := by
  rw [partialBlock, ← drop_blocks_append, List.drop_drop, ← Nat.mul_add, drop_blocks_append, ← blocks_append, partialBlock]

/-- The fold over the whole blocks of `m ++ s` goes on, after those of `m`, from `m`'s partial block. -/
theorem foldBlocks_append (v : Chaining) (m s : Bytes) :
    foldBlocks v (m ++ s) ((m ++ s).length / 64) =
      foldBlocks (foldBlocks v m (m.length / 64)) (partialBlock m ++ s) ((partialBlock m ++ s).length / 64) := by
  rw [blocks_append m s, foldBlocks_add, drop_blocks_append, foldBlocks_append_of_le (m := m) (by omega)]

/-! ### Absorbing in pieces (R144 item 1) -/

variable {c t u : Ctx} {m s : Bytes}

theorem Absorbed.buffered (h : Absorbed c m t) : t.buffered = partialBlock m := by
  rw [Ctx.buffered, h.num, h.blk, partialBlock]

/-- Absorbing `s` after `m` is absorbing `m ++ s`. -/
theorem Absorbed.append (h : Absorbed c m t) (s : Bytes) : Absorbed c (m ++ s) (t.absorb Config.chip s) := by
  have hs := absorb_absorbed t s
  rw [h.buffered] at hs
  have hrest : (partialBlock m ++ s).length % 64 = (m ++ s).length % 64 := by
    simp [partialBlock_length]
  refine ⟨?_, ?_, ?_, ?_, ?_⟩
  · rw [hs.v, h.v, foldBlocks_append c.v m s]
  · rw [hs.nblocks, h.nblocks, blocks_append m s, BitVec.ofNat_add, add_assoc]
  · rw [hs.num, hrest]
  · have hblk := hs.blk
    rw [hrest] at hblk
    exact hblk.trans (partialBlock_append m s)
  · rw [hs.st, h.st]

theorem absorbed_init : Absorbed Ctx.init [] Ctx.init :=
  ⟨rfl, rfl, rfl, rfl, rfl⟩

/-- A context that absorbs pieces in turn absorbs their concatenation. -/
theorem Absorbed.foldl (h : Absorbed c m t) (pieces : List Bytes) :
    Absorbed c (m ++ pieces.flatten) (pieces.foldl (Ctx.absorb Config.chip) t) := by
  induction pieces generalizing m t with
  | nil => simpa using h
  | cons s pieces ih => simpa using ih (h.append s)

/-- Absorbing nothing changes nothing (R138, R146). -/
theorem absorb_nil (c : Ctx) : c.absorb Config.chip [] = c := by
  obtain h0 | h0 := Nat.eq_zero_or_pos c.num.toNat
  · have hnum : c.num = 0 := BitVec.eq_of_toNat_eq h0
    rw [absorb_of_empty h0, absorbAligned_short (by decide), patchBlock_nil]
    cases c
    cases hnum
    rfl
  · have hnum : c.num.toNat < 64 := c.num.isLt
    rw [absorb_of_short h0 (by rw [List.length_nil]; omega), patchBlock_nil, List.length_nil, Nat.add_zero, BitVec.ofNat_toNat,
      BitVec.setWidth_eq]

/-! ### Padding (R140, R141) -/

/-- HI and LO never carry into each other: LO's two parts are the low 23 bits of NBLOCKS at bit 9 and NUM at bit 3. -/
theorem lengthField_bits (c : Ctx) :
    c.lengthHi.toNat * 2 ^ 32 + c.lengthLo.toNat = 512 * c.nblocks.toNat + 8 * c.num.toNat := by
  have hnum : c.num.toNat < 64 := c.num.isLt
  simp only [Ctx.lengthHi, Ctx.lengthLo, BitVec.toNat_add, BitVec.toNat_ushiftRight, BitVec.toNat_shiftLeft,
    BitVec.toNat_setWidth, Nat.shiftLeft_eq, Nat.shiftRight_eq_div_pow]
  omega

/-- What FINAL compresses: the buffered bytes, the mark, zeros up to 8 bytes before a block's end, the length field. -/
def Ctx.paddedTail (c : Ctx) : Bytes :=
  c.buffered ++ [0x80#8] ++ zeros ((119 - c.num.toNat) % 64) ++ c.lengthField

theorem paddedTail_length (c : Ctx) : c.paddedTail.length = if c.num.toNat ≤ 55 then 64 else 128 := by
  have hnum : c.num.toNat < 64 := c.num.isLt
  simp only [Ctx.paddedTail, List.length_append, buffered_length, List.length_singleton, zeros_length, lengthField_length]
  split <;> omega

theorem zeros_append (m n : Nat) : zeros m ++ zeros n = zeros (m + n) := List.replicate_append_replicate

/-- Bytes put in right behind a known beginning of a block extend it. -/
theorem patchBlock_extend {blk : Vector Byte 64} {x s : Bytes} {pos : Nat} (hx : x <+: blk.toList) (hpos : x.length = pos)
    (h : pos + s.length ≤ 64) : x ++ s <+: (patchBlock blk pos s).toList := by
  rw [patchBlock_toList h, ← hpos, ← List.prefix_iff_eq_take.1 hx]
  exact List.prefix_append _ _

theorem eq_block_of_prefix {blk : Vector Byte 64} {x : Bytes} (hx : x <+: blk.toList) (h : x.length = 64) :
    blk.toList = x :=
  (hx.eq_of_length (by simp [h])).symm

theorem foldBlocks_cons {b : Bytes} (hb : b.length = 64) (v : Chaining) (m : Bytes) (q : Nat) :
    foldBlocks v (b ++ m) (q + 1) = foldBlocks (compress v b) m q := by
  rw [foldBlocks_succ, List.take_left' hb, List.drop_left' hb]

/-- The buffered bytes, the mark behind them, and zeros behind the mark. -/
theorem marked_prefix (c : Ctx) {k : Nat} (h : c.num.toNat + 1 + k ≤ 64) :
    c.buffered ++ [0x80#8] ++ zeros k <+:
      (patchBlock (patchBlock c.blk c.num.toNat [0x80#8]) (c.num.toNat + 1) (zeros k)).toList := by
  refine patchBlock_extend (patchBlock_extend (List.take_prefix _ _) (buffered_length c) ?_) (by simp) ?_
  · rw [List.length_singleton]; omega
  · rwa [zeros_length]

/-- At most 55 buffered bytes leave room for the mark and the length field in one block. -/
theorem padAndCompress_one {c : Ctx} (h : c.num.toNat ≤ 55) : c.padAndCompress = compress c.v c.paddedTail := by
  have hblock := patchBlock_extend (s := c.lengthField) (marked_prefix c (k := 55 - c.num.toNat) (by omega))
    (show _ = 56 by simp; omega) (by simp)
  have htail : c.paddedTail = c.buffered ++ [0x80#8] ++ zeros (55 - c.num.toNat) ++ c.lengthField := by
    rw [Ctx.paddedTail, show (119 - c.num.toNat) % 64 = 55 - c.num.toNat by omega]
  rw [← htail] at hblock
  rw [Ctx.padAndCompress, if_pos (by omega), eq_block_of_prefix hblock (by rw [paddedTail_length, if_pos h])]

/-- More than 55 do not: the zeros fill this block, and a second one up to its length field. -/
theorem padAndCompress_two {c : Ctx} (h : ¬ c.num.toNat ≤ 55) :
    c.padAndCompress =
      compress (compress c.v (c.buffered ++ [0x80#8] ++ zeros (63 - c.num.toNat))) (zeros 56 ++ c.lengthField) := by
  have hnum : c.num.toNat < 64 := c.num.isLt
  have hfirst := marked_prefix c (k := 63 - c.num.toNat) (by omega)
  have hsecond (blk : Vector Byte 64) :
      zeros 56 ++ c.lengthField <+: (patchBlock (patchBlock blk 0 (zeros 56)) 56 c.lengthField).toList :=
    patchBlock_extend (patchBlock_extend List.nil_prefix rfl (by simp)) (by simp) (by simp)
  rw [Ctx.padAndCompress, if_neg (by omega)]
  dsimp only
  rw [eq_block_of_prefix (hsecond _) (by simp), eq_block_of_prefix hfirst (by simp; omega)]

theorem paddedTail_two {c : Ctx} (h : ¬ c.num.toNat ≤ 55) :
    c.paddedTail = c.buffered ++ [0x80#8] ++ zeros (63 - c.num.toNat) ++ (zeros 56 ++ c.lengthField) := by
  have hnum : c.num.toNat < 64 := c.num.isLt
  rw [Ctx.paddedTail, show (119 - c.num.toNat) % 64 = 63 - c.num.toNat + 56 by omega, ← zeros_append]
  simp only [List.append_assoc]

/-- PAD_AND_COMPRESS is the fold over the padded tail, in either case. -/
theorem padAndCompress_eq_foldBlocks (c : Ctx) :
    c.padAndCompress = foldBlocks c.v c.paddedTail (c.paddedTail.length / 64) := by
  rw [paddedTail_length]
  by_cases h : c.num.toNat ≤ 55
  · have hlen : c.paddedTail.length = 64 := by rw [paddedTail_length, if_pos h]
    rw [if_pos h, padAndCompress_one h, ← c.paddedTail.append_nil, foldBlocks_cons hlen, foldBlocks_zero, List.append_nil]
  · have hfirst : (c.buffered ++ [0x80#8] ++ zeros (63 - c.num.toNat)).length = 64 := by simp; omega
    rw [if_neg h, padAndCompress_two h, paddedTail_two h, foldBlocks_cons hfirst,
      ← (zeros 56 ++ c.lengthField).append_nil, foldBlocks_cons (by simp), foldBlocks_zero, List.append_nil]

/-! ### The digest of a message (R142, R144) -/

/-- A digest depends on the message absorbed, not on how it was. -/
theorem Absorbed.finalDigest_unique (ht : Absorbed c m t) (hu : Absorbed c m u) : t.finalDigest = u.finalDigest := by
  have hnum : t.num = u.num := BitVec.eq_of_toNat_eq (ht.num.trans hu.num.symm)
  have htail : t.paddedTail = u.paddedTail := by
    rw [Ctx.paddedTail, Ctx.paddedTail, Ctx.lengthField, Ctx.lengthField, Ctx.lengthHi, Ctx.lengthHi, Ctx.lengthLo,
      Ctx.lengthLo, ht.buffered, hu.buffered, hnum, ht.nblocks, hu.nblocks]
  rw [Ctx.finalDigest, Ctx.finalDigest, padAndCompress_eq_foldBlocks, padAndCompress_eq_foldBlocks, htail, ht.v, hu.v]

/-- The one-shot context has absorbed its message. -/
theorem absorbed_oneShot (msg : Bytes) : Absorbed Ctx.init msg (Ctx.init.absorb Config.chip msg) :=
  absorbed_init.append msg

/-- Below 2^38 bytes the length field is the message's length in bits, exactly. -/
theorem lengthField_oneShot {msg : Bytes} {t : Ctx} (h : Absorbed Ctx.init msg t) (hlen : msg.length < 2 ^ 38) :
    t.lengthField = be32 (BitVec.ofNat 32 (8 * msg.length / 2 ^ 32)) ++ be32 (BitVec.ofNat 32 (8 * msg.length)) := by
  have hbits := lengthField_bits t
  have hnblocks : t.nblocks.toNat = msg.length / 64 := by
    rw [h.nblocks, Ctx.init]
    simp; omega
  have hlt := t.lengthLo.isLt
  rw [hnblocks, h.num] at hbits
  have hhi : t.lengthHi = BitVec.ofNat 32 (8 * msg.length / 2 ^ 32) :=
    BitVec.eq_of_toNat_eq (by rw [BitVec.toNat_ofNat]; omega)
  have hlo : t.lengthLo = BitVec.ofNat 32 (8 * msg.length) :=
    BitVec.eq_of_toNat_eq (by rw [BitVec.toNat_ofNat]; omega)
  rw [Ctx.lengthField, hhi, hlo]

/-- The message's fold, gone on over the padded tail. -/
theorem Absorbed.finalDigest_eq_foldBlocks (h : Absorbed c m t) {pad : Bytes} (hpad : t.paddedTail = partialBlock m ++ pad) :
    t.finalDigest = serializeDigest (foldBlocks c.v (m ++ pad) ((m ++ pad).length / 64)) := by
  rw [Ctx.finalDigest, padAndCompress_eq_foldBlocks, h.v, hpad, ← foldBlocks_append]

/-! ### Rounds and known answers (R128, R150) -/

/-- `rotl` is the library's rotation, by `n mod 32` (spec/00_scope.md R14). -/
theorem rotl_eq_rotateLeft (x : Word) (n : Nat) : rotl x n = x.rotateLeft (n % 32) := by
  rw [rotl, BitVec.rotateLeft_def, Nat.mod_mod]

/-- The digest of the empty string (R150). -/
theorem digestOf_nil :
    digestOf Config.chip [] =
      be32 0x1AB21D83 ++ be32 0x55CFA17F ++ be32 0x8E611948 ++ be32 0x31E81A8F ++
      be32 0x22BEC8C7 ++ be32 0x28FEFB74 ++ be32 0x7ED035EB ++ be32 0x5082AA2B := by decide +kernel

/-! ### The obligations -/

/-- Settles O14: both contexts have absorbed the concatenation from a fresh one. -/
theorem digestDoesNotDependOnTheSplit : Obligations.DigestDoesNotDependOnTheSplit :=
  fun pieces => (absorbed_init.foldl pieces).finalDigest_unique (absorbed_oneShot pieces.flatten)

/-- Settles O15: by the length of the padded tail, one block or two. -/
theorem finalPadsToOneOrTwoBlocks : Obligations.FinalPadsToOneOrTwoBlocks := by
  rintro c p (rfl : p = c.paddedTail)
  exact ⟨paddedTail_length c, by rw [Ctx.finalDigest, padAndCompress_eq_foldBlocks]⟩

/-- Settles O16: HI and LO do not overlap. -/
theorem lengthFieldIsTheLengthInBits : Obligations.LengthFieldIsTheLengthInBits :=
  fun c => ⟨rfl, lengthField_bits c⟩

/-- Settles O17: the padded tail goes on from the partial block of the message, with the length field exact. -/
theorem digestIsTheMerkleDamgardHash : Obligations.DigestIsTheMerkleDamgardHash := by
  rintro msg p hlen rfl
  have h := absorbed_oneShot msg
  have hpad : (Ctx.init.absorb Config.chip msg).paddedTail =
      partialBlock msg ++ ([0x80] ++ (zeros ((119 - msg.length % 64) % 64) ++
        (be32 (BitVec.ofNat 32 (8 * msg.length / 2 ^ 32)) ++ be32 (BitVec.ofNat 32 (8 * msg.length))))) := by
    rw [Ctx.paddedTail, h.buffered, h.num, lengthField_oneShot h hlen, List.append_assoc, List.append_assoc]
    rfl
  refine ⟨by simp; omega, ?_⟩
  rw [digestOf, h.finalDigest_eq_foldBlocks hpad]
  simp only [List.append_assoc, Ctx.init]

/-- Settles O11: a rotation by a whole word more is the same one. -/
theorem roundConstantRotationIsModulo32 : Obligations.RoundConstantRotationIsModulo32 := by
  refine ⟨fun r j => ⟨rfl, rotl_eq_rotateLeft _ j⟩, fun j hlo _ => ?_, by decide⟩
  rw [rotl_eq_rotateLeft, rotl_eq_rotateLeft, show (j - 32) % 32 = j % 32 by omega]

/-- Settles O12: one padded block each, compressed by evaluation. -/
theorem knownAnswerDigests : Obligations.KnownAnswerDigests :=
  ⟨digestOf_nil, by decide +kernel⟩

end Sys2Proof.Machine

/-!
SUPPORT. The digest commands by outcome: the order of their checks, the slot they write and what they leave
(spec/40_digest.md R145-R148).
-/

namespace Sys2Proof.Machine

/-! ### The words of the slot commands (R93, R95) -/

/-- A word whose SEL, MID and RSVD are 0. -/
theorem commandWord_slot (opc : BitVec 8) (k : BitVec 4) :
    commandWord opc k 0 0 = (opc.setWidth 32 <<< 24) ||| (k.setWidth 32 <<< 20) := by
  ext i hi
  simp only [commandWord, BitVec.getElem_or, BitVec.getElem_shiftLeft, BitVec.ofNat_eq_ofNat]
  grind

theorem decode_absentSlot {opc : BitVec 8} {k : BitVec 4} (ho : opc ∈ slotOpcodes) (hk : slotExists Config.chip k = false) :
    decode (commandWord opc k 0 0) = .error .reservedField := by
  refine decodeFor_eq_reservedField_iff.2 ⟨?_, (fieldsIllegal_iff _ _).2 (.inr (.inl ⟨?_, ?_⟩))⟩
  · have hlegal : ∀ o ∈ slotOpcodes, o ∈ legalOpcodes := by decide
    rw [opcField_commandWord]
    exact hlegal opc ho
  · rwa [opcField_commandWord]
  · rw [ctxField_commandWord, hk]; decide

/-! ### Their checks in order (R222) -/

/-- The checks of DG_ABSORB and DG_FINAL: the slot, its status, and a range. -/
def slotChecks (cfg : Config) (k : BitVec 4) (s : State) (a : Word) (n : Nat) : List (Bool × FaultCode) :=
  [slotCheck cfg k, ((s.slot k).st == .uninit, .ctxUninit), (!inRange cfg a n, .bufRange)]

section SlotChecks

variable {k : BitVec 4} {s : State} {a : Word} {n : Nat} (effect : State → State)

theorem slotCheck_exists (hk : slotExists Config.chip k = true) : slotCheck Config.chip k = (false, .reservedField) := by
  rw [slotCheck, hk]
  rfl

theorem rangeCheck_fails (hr : 4096 < a.toNat + n) : (!inRange Config.chip a n) = true := by
  rw [inRange, chip_bufSize, decide_eq_false (by omega)]
  rfl

theorem rangeCheck_passes (hr : a.toNat + n ≤ 4096) : (!inRange Config.chip a n) = false := by
  rw [(inRange_iff _ _ _).2 hr]
  rfl

theorem guarded_uninit (hk : slotExists Config.chip k = true) (hst : (s.slot k).st = .uninit) :
    s.guarded (slotChecks Config.chip k s a n) effect = s.faultEntry .ctxUninit := by
  rw [slotChecks, slotCheck_exists hk, hst]
  rfl

theorem guarded_outOfRange (hk : slotExists Config.chip k = true) (hst : (s.slot k).st = .ready)
    (hr : 4096 < a.toNat + n) : s.guarded (slotChecks Config.chip k s a n) effect = s.faultEntry .bufRange := by
  rw [slotChecks, slotCheck_exists hk, hst, rangeCheck_fails hr]
  rfl

theorem guarded_ready (hk : slotExists Config.chip k = true) (hst : (s.slot k).st = .ready)
    (hr : a.toNat + n ≤ 4096) : s.guarded (slotChecks Config.chip k s a n) effect = effect s := by
  rw [slotChecks, slotCheck_exists hk, hst, rangeCheck_passes hr]
  rfl

end SlotChecks

/-! ### What the commands leave -/

section Effects

variable (s : State) (k : BitVec 4) (c : Ctx)

/-- A completed write of a slot changes nothing else. -/
theorem setSlot_complete_frame :
    (s.setSlot k c).complete = { s with ctx := (s.setSlot k c).complete.ctx, pend := none, busy := false } := rfl

/-- A completed store and write of a slot change nothing else. -/
theorem memWrite_setSlot_complete_frame (a : Nat) (d : Bytes) :
    ((s.memWrite Config.chip a d).setSlot k c).complete =
      { s with
        buf := ((s.memWrite Config.chip a d).setSlot k c).complete.buf
        ctx := ((s.memWrite Config.chip a d).setSlot k c).complete.ctx
        pend := none
        busy := false } := rfl

end Effects

/-- The 32 bytes at an address in range are the digest written there, and every other byte is as it was. -/
theorem digest_written (s : State) {a : Nat} {d : Bytes} (hd : d.length = 32) (ha : a + 32 ≤ 4096) :
    (s.memWrite Config.chip a d).memRead a 32 = d ∧
      ∀ x, x < a ∨ a + 32 ≤ x → (s.memWrite Config.chip a d).byteAt x = s.byteAt x :=
  ⟨s.memRead_memWrite_same hd ha, fun _ hx => s.byteAt_memWrite_outside (by rwa [hd])⟩

/-! ### The commands, performed -/

section Exec

variable {k : BitVec 4} {s : State}

theorem exec_dgInit (hk : slotExists Config.chip k = true) :
    exec (.dgInit k) s = .next (s.setSlot k Ctx.init).complete := by
  rw [exec, execDgInit, dgInit, slotCheck_exists hk, State.guarded_false, State.guarded_nil]

/-- DG_ABSORB is its effect behind its checks. -/
theorem exec_dgAbsorb (k : BitVec 4) (s : State) :
    exec (.dgAbsorb k) s = .next (s.guarded (slotChecks Config.chip k s s.arg0 s.arg1.toNat) fun s =>
      (s.setSlot k ((s.slot k).absorb Config.chip (s.memRead s.arg0.toNat s.arg1.toNat))).complete) := rfl

/-- DG_FINAL is its effect behind its checks. -/
theorem exec_dgFinal (k : BitVec 4) (s : State) :
    exec (.dgFinal k) s = .next (s.guarded (slotChecks Config.chip k s s.arg0 32) fun s =>
      ((s.memWrite Config.chip s.arg0.toNat (s.slot k).finalDigest).setSlot k Ctx.init).complete) := rfl

theorem exec_dgDigest (hsrc : s.arg0.toNat + s.arg1.toNat ≤ 4096) (hdst : s.arg2.toNat + 32 ≤ 4096) :
    exec .dgDigest s = .next (s.memWrite Config.chip s.arg2.toNat
      (digestOf Config.chip (s.memRead s.arg0.toNat s.arg1.toNat))).complete := by
  rw [exec, execDgDigest, dgDigest, rangeCheck_passes hsrc, rangeCheck_passes hdst, State.guarded_false,
    State.guarded_false, State.guarded_nil]

theorem exec_dgDigest_outOfRange (h : 4096 < s.arg0.toNat + s.arg1.toNat ∨ 4096 < s.arg2.toNat + 32) :
    exec .dgDigest s = .next (s.faultEntry .bufRange) := by
  rw [exec, execDgDigest, dgDigest]
  obtain hsrc | hsrc := Nat.lt_or_ge 4096 (s.arg0.toNat + s.arg1.toNat)
  · rw [rangeCheck_fails hsrc, State.guarded_true]
  · rw [rangeCheck_passes hsrc, rangeCheck_fails (h.resolve_left (by omega)), State.guarded_false, State.guarded_true]

end Exec

/-! ### The obligations -/

/-- Settles O18: the slot written is the fresh context, whatever it was. -/
theorem dgInitInitializesItsSlot : Obligations.DgInitInitializesItsSlot := by
  refine fun k s => ⟨commandWord_slot 0x01 k, decode_absentSlot (by decide), fun hk => ⟨_, exec_dgInit hk, ?_⟩⟩
  have hslot : (s.setSlot k Ctx.init).complete.slot k = Ctx.init := s.slot_setSlot_same k _
  rw [hslot]
  exact ⟨rfl, rfl, rfl, rfl, rfl, fun j hj => s.slot_setSlot_other hj _, setSlot_complete_frame s k _⟩

/-- Settles O19: by the outcomes of its checks. -/
theorem dgAbsorbAbsorbsTheRange : Obligations.DgAbsorbAbsorbsTheRange := by
  refine fun k s => ⟨commandWord_slot 0x02 k, decode_absentSlot (by decide), fun hk hst => ?_, fun hk hst hr => ?_,
    fun hk hst hr => ?_⟩
  · rw [exec_dgAbsorb, guarded_uninit _ hk hst]
  · rw [exec_dgAbsorb, guarded_outOfRange _ hk hst hr]
  · rw [exec_dgAbsorb, guarded_ready _ hk hst hr]
    refine ⟨_, rfl, s.slot_setSlot_same k _, fun hn => ?_, fun j hj => s.slot_setSlot_other hj _,
      setSlot_complete_frame s k _⟩
    rw [hn]
    exact (s.slot_setSlot_same k _).trans (absorb_nil _)

/-- Settles O20: by the outcomes of its checks. -/
theorem dgFinalWritesTheDigestAndResetsItsSlot : Obligations.DgFinalWritesTheDigestAndResetsItsSlot := by
  refine fun k s => ⟨commandWord_slot 0x03 k, decode_absentSlot (by decide), fun hk hst => ?_, fun hk hst hr => ?_,
    fun hk hst hr => ?_⟩
  · rw [exec_dgFinal, guarded_uninit _ hk hst]
  · rw [exec_dgFinal, guarded_outOfRange _ hk hst hr]
  · rw [exec_dgFinal, guarded_ready _ hk hst hr]
    obtain ⟨hdigest, hbytes⟩ := digest_written s (finalDigest_length (s.slot k)) hr
    exact ⟨_, rfl, hdigest, hbytes, State.slot_setSlot_same _ k _, fun j hj => State.slot_setSlot_other _ hj _,
      memWrite_setSlot_complete_frame s k _ _ _⟩

/-- Settles O21: the digest is taken of the state before, whatever the ranges. -/
theorem dgDigestWritesTheDigestOfTheRange : Obligations.DgDigestWritesTheDigestOfTheRange := by
  refine ⟨rfl, fun s => ⟨exec_dgDigest_outOfRange, fun hsrc hdst => ?_, digestOf_nil⟩⟩
  obtain ⟨hdigest, hbytes⟩ := digest_written s (digestOf_length Config.chip (s.memRead s.arg0.toNat s.arg1.toNat)) hdst
  exact ⟨_, exec_dgDigest hsrc hdst, hdigest, hbytes, rfl⟩

/-! ### Commands that store nothing -/

/-- Only DG_FINAL, DG_DIGEST, COMPOSE, REGEN, TEST and a SEARCH under way store (R145, R146, R168, R186, R203). -/
theorem Effect.byteAt {s t : State} {i : Instr} (e : Effect s i t) (hf : ∀ k, i ≠ .dgFinal k) (hd : i ≠ .dgDigest)
    (hc : i ∉ chainCommands) (ht : i ∉ testCommands) (hs : i ∈ searchCommands → s.srch.started = false) (x : Nat) :
    t.byteAt x = s.byteAt x := by
  cases e with
  | final => exact absurd rfl (hf _)
  | digest => exact absurd rfl hd
  | chain hi => exact absurd hi hc
  | test hi => exact absurd hi ht
  | attempt hi hs' => simp [hs hi] at hs'
  | finish hi hs' => simp [hs hi] at hs'
  | _ => rfl

theorem searchCommand_not_storing : ∀ i ∈ searchCommands,
    (∀ k, i ≠ .dgFinal k) ∧ i ≠ .dgDigest ∧ i ∉ chainCommands ∧ i ∉ testCommands := by
  decide

/-- Settles O58: none of them is a command that stores. -/
theorem nonStoringCommandsLeaveBufAlone : Obligations.NonStoringCommandsLeaveBufAlone := by
  intro i s t h hi
  have e := exec_effect h
  obtain ⟨k, rfl | rfl⟩ | rfl | rfl | ⟨hi, hs⟩ := hi
  · obtain ⟨hc, ht, hs⟩ := slotCommand_not_mem k (.dgInit k) (by simp [slotCommands])
    exact e.byteAt (by simp) (by simp) hc ht (absurd · hs)
  · obtain ⟨hc, ht, hs⟩ := slotCommand_not_mem k (.dgAbsorb k) (by simp [slotCommands])
    exact e.byteAt (by simp) (by simp) hc ht (absurd · hs)
  · exact e.byteAt (by decide) (by decide) (by decide) (by decide) (absurd · (by decide))
  · exact e.byteAt (by decide) (by decide) (by decide) (by decide) (absurd · (by decide))
  · obtain ⟨hf, hd, hc, ht⟩ := searchCommand_not_storing i hi
    exact e.byteAt hf hd hc ht fun _ => hs

end Sys2Proof.Machine

/-!
SUPPORT. Composer A: the index of a timestamp as an integer remainder, the ten stages, and the commands that run it or read its
table (spec/41_composer_a.md R161-R169, spec/43_harness.md R202, R203, R207).
-/

namespace Sys2Proof.Machine

/-! ### The permutation index (R163) -/

section Index

variable {cfg : Config} {t t' : Word}

theorem permIndexOf_u32wrap (ha : cfg.indexArith = .u32wrap) (t : Word) :
    permIndexOf cfg t = (t - cfg.baseTimestamp).toNat % cfg.tableLength := by
  rw [permIndexOf, ha]

theorem permIndexOf_math (hlen : 1 ≤ cfg.tableLength) (ha : cfg.indexArith = .math) (t : Word) :
    (permIndexOf cfg t : Int) = ((t.toNat : Int) - cfg.baseTimestamp.toNat) % cfg.tableLength := by
  rw [permIndexOf, ha]
  exact Int.toNat_of_nonneg (Int.emod_nonneg _ (by omega))

/-- Below BASE_TIMESTAMP the difference of words is 2^32 more than that of the numbers. -/
theorem toNat_sub_base_wrapped (ht : t.toNat < cfg.baseTimestamp.toNat) :
    (t - cfg.baseTimestamp).toNat = 2 ^ 32 + t.toNat - cfg.baseTimestamp.toNat := by
  have hbase := cfg.baseTimestamp.isLt
  rw [BitVec.toNat_sub, Nat.mod_eq_of_lt (by omega)]
  omega

/-- Where U32WRAP does not wrap, or wraps by a multiple of the length, it gives the index of MATH. -/
theorem permIndexOf_u32wrap_eq_math (ha : cfg.indexArith = .u32wrap)
    (h : cfg.baseTimestamp.toNat ≤ t.toNat ∨ cfg.tableLength ∣ 2 ^ 32) :
    (permIndexOf cfg t : Int) = ((t.toNat : Int) - cfg.baseTimestamp.toNat) % cfg.tableLength := by
  rw [permIndexOf_u32wrap ha, Int.natCast_emod]
  obtain ht | ht := Nat.lt_or_ge t.toNat cfg.baseTimestamp.toNat
  · have hdvd : (cfg.tableLength : Int) ∣ 2 ^ 32 := by exact_mod_cast h.resolve_left (by omega)
    have hsub : ((t - cfg.baseTimestamp).toNat : Int) - (t.toNat - cfg.baseTimestamp.toNat) = 2 ^ 32 := by
      rw [toNat_sub_base_wrapped ht]
      omega
    exact (Int.modEq_of_dvd (by rwa [hsub])).symm
  · rw [BitVec.toNat_sub_of_le ht, Int.ofNat_sub ht]

/-- Both timestamps below BASE_TIMESTAMP wrap alike. -/
theorem permIndexOf_add_wrapped (ha : cfg.indexArith = .u32wrap) (ht' : t'.toNat = t.toNat + cfg.tableLength)
    (h : t'.toNat < cfg.baseTimestamp.toNat) : permIndexOf cfg t = permIndexOf cfg t' := by
  have hbase := cfg.baseTimestamp.isLt
  rw [permIndexOf_u32wrap ha, permIndexOf_u32wrap ha, toNat_sub_base_wrapped (by omega), toNat_sub_base_wrapped h, ht',
    show 2 ^ 32 + (t.toNat + cfg.tableLength) - cfg.baseTimestamp.toNat =
      2 ^ 32 + t.toNat - cfg.baseTimestamp.toNat + cfg.tableLength by omega, Nat.add_mod_right]

/-- An index that is the remainder of the difference of the numbers is periodic in the timestamp. -/
theorem permIndexOf_add_tableLength (ht' : t'.toNat = t.toNat + cfg.tableLength)
    (h : (permIndexOf cfg t : Int) = ((t.toNat : Int) - cfg.baseTimestamp.toNat) % cfg.tableLength)
    (h' : (permIndexOf cfg t' : Int) = ((t'.toNat : Int) - cfg.baseTimestamp.toNat) % cfg.tableLength) :
    permIndexOf cfg t = permIndexOf cfg t' := by
  have hsub : (t'.toNat : Int) - cfg.baseTimestamp.toNat = t.toNat - cfg.baseTimestamp.toNat + cfg.tableLength := by omega
  rw [hsub, Int.add_emod_right, ← h] at h'
  exact Int.ofNat.inj h'.symm

/-- The index is periodic under MATH, and under U32WRAP on either side of BASE_TIMESTAMP or for a length that divides 2^32
(R167). -/
theorem permIndexOf_periodic (hlen : 1 ≤ cfg.tableLength) (ht' : t'.toNat = t.toNat + cfg.tableLength)
    (h : cfg.indexArith = .u32wrap → cfg.baseTimestamp.toNat ≤ t.toNat ∨
      t.toNat + cfg.tableLength < cfg.baseTimestamp.toNat ∨ cfg.tableLength ∣ 2 ^ 32) :
    permIndexOf cfg t = permIndexOf cfg t' := by
  cases ha : cfg.indexArith with
  | math => exact permIndexOf_add_tableLength ht' (permIndexOf_math hlen ha t) (permIndexOf_math hlen ha t')
  | u32wrap =>
    obtain hle | hlt | hdvd := h ha
    · exact permIndexOf_add_tableLength ht' (permIndexOf_u32wrap_eq_math ha (.inl hle))
        (permIndexOf_u32wrap_eq_math ha (.inl (by omega)))
    · exact permIndexOf_add_wrapped ha ht' (by omega)
    · exact permIndexOf_add_tableLength ht' (permIndexOf_u32wrap_eq_math ha (.inr hdvd))
        (permIndexOf_u32wrap_eq_math ha (.inr hdvd))

end Index

/-! ### Selectors (R161, R164) -/

theorem permWord_eq_getElem {cfg : Config} {i : Nat} (h : i < cfg.permTable.length) : permWord cfg i = cfg.permTable[i] :=
  List.getD_eq_getElem _ _ h

theorem nibble_toNat (w : Word) (k : Nat) : (nibble w k).toNat = w.toNat / 16 ^ k % 16 := by
  rw [nibble, BitVec.extractLsb'_toNat, Nat.shiftRight_eq_div_pow, Nat.pow_mul]

theorem selectors_toNat (cfg : Config) (t : Word) :
    (selectors cfg t).map BitVec.toNat =
      (List.range 8).map fun k => (permWord cfg (permIndexOf cfg t)).toNat / 16 ^ k % 16 := by
  rw [selectors, selectorsOf, List.map_map]
  exact List.map_congr_left fun k _ => nibble_toNat _ k

theorem selBad_iff (cfg : Config) (t : Word) :
    selBad cfg t = true ↔ ∃ k, k < 8 ∧ 8 ≤ (permWord cfg (permIndexOf cfg t)).toNat / 16 ^ k % 16 := by
  simp only [selBad, selectorsBad, selectors, selectorsOf, List.any_map, List.any_eq_true, List.mem_range,
    Function.comp_apply, decide_eq_true_eq, nibble_toNat]

/-! ### The chain (R166) -/

/-- The intermediate of Composer A after the fixed stages and the first `k` selected ones. -/
def stageA (cfg : Config) (w : Word) (h : Bytes) : Nat → Bytes64
  | 0 => cfg.primA2 (cfg.primA1 h).toList
  | k + 1 => smx cfg (nibble w k) (stageA cfg w h k)

theorem stagesA_eq_stageA (cfg : Config) (w : Word) (h : Bytes) :
    stagesA cfg (selectorsOf w) h = (stageA cfg w h 8).toList.take 32 := rfl

/-- A selector below 8 runs the primitive of its number (R165). -/
theorem smx_eq_primSel {v : BitVec 4} (hv : v.toNat < 8) (cfg : Config) (x : Bytes64) :
    smx cfg v x = cfg.primSel ⟨v.toNat, hv⟩ x.toList := by
  have hsel : Fin.ofNat 8 v.toNat = ⟨v.toNat, hv⟩ := Fin.ext (Nat.mod_eq_of_lt hv)
  rw [smx, hsel]

theorem chainA_of_selBad {cfg : Config} {t : Word} (hsel : selBad cfg t = true) (h : Bytes) :
    chainA cfg h t = .error .badSelector :=
  if_pos hsel

theorem chainA_of_not_selBad {cfg : Config} {t : Word} (hsel : ¬ selBad cfg t = true) (h : Bytes) :
    chainA cfg h t = .ok (stagesA cfg (selectors cfg t) h, BitVec.ofNat 32 (permIndexOf cfg t)) :=
  if_neg hsel

/-- The chain sees the timestamp through its index only. -/
theorem chainA_eq_of_permIndexOf_eq {cfg : Config} {t t' : Word} (hindex : permIndexOf cfg t = permIndexOf cfg t') (h : Bytes) :
    chainA cfg h t = chainA cfg h t' := by
  rw [chainA, chainA, selBad, selBad, selectors, selectors, hindex]

/-! ### Checks of the commands (R222) -/

theorem inRange_of_le {cfg : Config} {a : Word} {n : Nat} (h : a.toNat + n ≤ cfg.bufSize) : inRange cfg a n = true :=
  (inRange_iff cfg a n).2 h

theorem inRange_of_lt {cfg : Config} {a : Word} {n : Nat} (h : cfg.bufSize < a.toNat + n) : inRange cfg a n = false :=
  decide_eq_false (Nat.not_le.2 h)

section Checks

variable {cfg : Config} {s : State} (rest : List (Bool × FaultCode)) (effect : State → State)

theorem guarded_composeRanges_pass (hsrc : s.arg0.toNat + 80 ≤ cfg.bufSize) (hdst : s.arg2.toNat + 32 ≤ cfg.bufSize) :
    s.guarded (composeRanges cfg s ++ rest) effect = s.guarded rest effect := by
  rw [composeRanges, inRange_of_le hsrc, inRange_of_le hdst]
  rfl

theorem guarded_composeRanges_fail (h : cfg.bufSize < s.arg0.toNat + 80 ∨ cfg.bufSize < s.arg2.toNat + 32) :
    s.guarded (composeRanges cfg s ++ rest) effect = s.faultEntry .bufRange := by
  rw [composeRanges]
  obtain hsrc | hsrc := Nat.lt_or_ge cfg.bufSize (s.arg0.toNat + 80)
  · rw [inRange_of_lt hsrc]
    rfl
  · rw [inRange_of_le hsrc, inRange_of_lt (h.resolve_left (by omega))]
    rfl

/-- Without the midstate, a record in range passes the first checks of every harness command. -/
theorem guarded_recordChecks_pass (hwr : s.arg0.toNat + 112 ≤ cfg.bufSize) :
    s.guarded (recordChecks cfg s false ++ rest) effect = s.guarded rest effect := by
  rw [recordChecks, inRange_of_le hwr]
  rfl

variable (hsel : selBad cfg (timestampOf (s.headerAt cfg s.arg0)) = true)

include hsel

theorem guarded_selectorCheck_fail :
    s.guarded (selectorCheck cfg s .A) effect = s.faultEntry .badSelector := by
  rw [selectorCheck, hsel]
  rfl

theorem guarded_harnessChecks_selBad (hwr : s.arg0.toNat + 112 ≤ cfg.bufSize) (hta : s.arg1.toNat + 32 ≤ cfg.bufSize) :
    s.guarded (harnessChecks cfg s .A false) effect = s.faultEntry .badSelector := by
  rw [harnessChecks, guarded_recordChecks_pass _ _ hwr, inRange_of_le hta]
  exact guarded_selectorCheck_fail effect hsel

end Checks

/-! ### The commands, performed -/

theorem exec_permRead_outOfTable {s : State} (h : Config.chip.tableLength ≤ s.arg0.toNat) :
    exec .permRead s = .next (s.faultEntry .permIndex) := by
  rw [exec, execPermRead, permRead, decide_eq_true h, State.guarded_true]

theorem exec_permRead {s : State} (h : s.arg0.toNat < Config.chip.tableLength) :
    exec .permRead s = .next (s.setResult (permWord Config.chip s.arg0.toNat)).complete := by
  rw [exec, execPermRead, permRead, decide_eq_false (Nat.not_le.2 h), State.guarded_false, State.guarded_nil]

theorem exec_composeA_outOfRange {s : State} (h : 4096 < s.arg0.toNat + 80 ∨ 4096 < s.arg2.toNat + 32) :
    exec .composeA s = .next (s.faultEntry .bufRange) := by
  rw [exec, execComposeA, composeA, guarded_composeRanges_fail _ _ h]

/-- On the chip a COMPOSE.A in range completes with the chain's digest and index. -/
theorem exec_composeA {s : State} (hsrc : s.arg0.toNat + 80 ≤ 4096) (hdst : s.arg2.toNat + 32 ≤ 4096) :
    exec .composeA s = .next (s.composed Config.chip
      (stagesA Config.chip (selectors Config.chip s.arg1) (s.headerAt Config.chip s.arg0))
      (BitVec.ofNat 32 (permIndexOf Config.chip s.arg1))) := by
  rw [exec, execComposeA, composeA, guarded_composeRanges_pass _ _ hsrc hdst, chip_selBad, State.guarded_false,
    State.guarded_nil, chainA_chip, State.orFault_ok]

/-! ### The obligations -/

/-- Settles O10: the selector check is the first to fail, and the effect is behind it. -/
theorem badSelectorIsRaisedBeforeAnyWrite : Obligations.BadSelectorIsRaisedBeforeAnyWrite := by
  refine fun cfg s => ⟨fun hsrc hdst hsel => ?_, fun hwr hsel => ⟨?_, fun hta => ⟨?_, ?_⟩⟩⟩
  · rw [composeA, guarded_composeRanges_pass _ _ hsrc hdst, hsel, State.guarded_true]
  · rw [regen, guarded_recordChecks_pass _ _ hwr, guarded_selectorCheck_fail _ hsel]
  · rw [test, guarded_harnessChecks_selBad _ hsel hwr hta]
  · rw [searchStart, guarded_harnessChecks_selBad _ hsel hwr hta]

/-- Settles O23: each arithmetic by its equation, and the index lies in the table. -/
theorem permutationIndexAndSelectors : Obligations.PermutationIndexAndSelectors := by
  refine fun cfg t hlen => ⟨fun ha => ?_, fun ha => permIndexOf_math hlen ha t, fun h => ?_, ?_⟩
  · rw [permIndexOf_u32wrap ha, BitVec.toNat_sub, Nat.add_comm]
  · have hmath := permIndexOf_math (cfg := { cfg with indexArith := .math }) hlen rfl t
    have hwrap := permIndexOf_u32wrap_eq_math (cfg := { cfg with indexArith := .u32wrap }) (t := t) rfl h
    exact Int.ofNat.inj (hmath.trans hwrap.symm)
  · have hlt : permIndexOf cfg t < cfg.permTable.length := permIndexOf_lt hlen t
    refine ⟨cfg.permTable[permIndexOf cfg t], List.getElem?_eq_getElem hlt, ?_⟩
    rw [selectors_toNat, permWord_eq_getElem hlt]

/-- Settles O24: the intermediates are those of `stageA`. -/
theorem composerARunsTenStages : Obligations.ComposerARunsTenStages := by
  rintro cfg h t w rfl
  refine ⟨fun hbad => chainA_of_selBad ((selBad_iff cfg t).2 hbad) h, fun hgood => ?_⟩
  have hsel : ¬ selBad cfg t = true := by
    rw [selBad_iff]
    rintro ⟨k, hk, h8⟩
    exact absurd (hgood k hk) (Nat.not_lt.2 h8)
  refine ⟨stageA cfg (permWord cfg (permIndexOf cfg t)) h, rfl, fun k hk => ?_, ?_⟩
  · have hv : (nibble (permWord cfg (permIndexOf cfg t)) k).toNat < 8 := by
      rw [nibble_toNat]
      exact hgood k hk
    exact ⟨⟨_, hv⟩, nibble_toNat _ k, smx_eq_primSel hv cfg _⟩
  · rw [chainA_of_not_selBad hsel, selectors, stagesA_eq_stageA]

/-- Settles O25: the index is periodic, and the chain sees no more of the timestamp. -/
theorem composerAIsPeriodicInTheTimestamp : Obligations.ComposerAIsPeriodicInTheTimestamp :=
  fun _ h _ _ hlen ht' hdom => chainA_eq_of_permIndexOf_eq (permIndexOf_periodic hlen ht' hdom) h

/-- Settles O27: the header is read and the chain run on the state before. -/
theorem composeAWritesDigestAndIndex : Obligations.ComposeAWritesDigestAndIndex := by
  refine ⟨rfl, fun s => ⟨exec_composeA_outOfRange, fun hsrc hdst => ?_⟩⟩
  obtain ⟨hdigest, hbytes⟩ := digest_written s (stagesA_length Config.chip (selectors Config.chip s.arg1)
    (s.headerAt Config.chip s.arg0)) hdst
  exact ⟨_, _, exec_composeA hsrc hdst, chainA_chip _ _, hdigest, hbytes, rfl⟩

/-- Settles O26: by the index check. -/
theorem permReadReadsOneTableWord : Obligations.PermReadReadsOneTableWord := by
  refine ⟨rfl, fun s => ⟨exec_permRead_outOfTable, fun h => ?_⟩⟩
  rw [exec_permRead h, permWord_eq_getElem h]
  rfl

end Sys2Proof.Machine

/-!
SUPPORT. Composer B: the midstate law, what MIDREG holds and who writes it, and COMPOSE and MIDSTATE by outcome
(spec/42_composer_b.md R181-R188).
-/

namespace Sys2Proof.Machine

/-! ### The midstate law (R184, R185) -/

/-- Resumed from the midstate of `h0`, the composer sees the first bytes of `h0` and the rest of `h`. -/
theorem chainBMid_midstateOf {cfg : Config} (hcfg : cfg.WellFormed) {h0 h : Bytes} (h0len : h0.length = 80)
    (hlen : h.length = 80) :
    chainBMid cfg (midstateOf cfg h0) h = chainB cfg (h0.take cfg.midPrefix ++ h.drop cfg.midPrefix) := by
  have hpre := hcfg.midPrefix
  have hp : (h0.take cfg.midPrefix).length = cfg.midPrefix := by simp; omega
  have law := hcfg.midstateLaw (h0.take cfg.midPrefix ++ h.drop cfg.midPrefix) (by simp; omega)
  rw [List.take_left' hp, List.drop_left' hp] at law
  rw [chainBMid, midstateOf, law, chainB]

theorem chainBMid_midstateOf_of_prefix {cfg : Config} (hcfg : cfg.WellFormed) {h0 h : Bytes} (h0len : h0.length = 80)
    (hlen : h.length = 80) (hp : h0.take cfg.midPrefix = h.take cfg.midPrefix) :
    chainBMid cfg (midstateOf cfg h0) h = chainB cfg h := by
  rw [chainBMid_midstateOf hcfg h0len hlen, hp, List.take_append_drop]

/-! ### COMPOSE and MIDSTATE, performed (R186-R188) -/

section Exec

variable {s : State}

/-- With MIDREG valid, the check of the midstate passes. -/
theorem composeBMid_of_midValid (cfg : Config) (hm : s.midValid = true) :
    composeBMid cfg s = s.guarded (composeRanges cfg s)
      fun s => s.composed cfg (chainBMid cfg s.midS (s.headerAt cfg s.arg0)) 0 := by
  rw [composeBMid, hm, Bool.not_true, State.guarded_false]

theorem exec_composeB_outOfRange (h : 4096 < s.arg0.toNat + 80 ∨ 4096 < s.arg2.toNat + 32) :
    exec .composeB s = .next (s.faultEntry .bufRange) :=
  congrArg Host.Outcome.next (guarded_composeRanges_fail [] _ h)

theorem exec_composeB (hsrc : s.arg0.toNat + 80 ≤ 4096) (hdst : s.arg2.toNat + 32 ≤ 4096) :
    exec .composeB s = .next (s.composed Config.chip (chainB Config.chip (s.headerAt Config.chip s.arg0)) 0) :=
  congrArg Host.Outcome.next (guarded_composeRanges_pass [] _ hsrc hdst)

theorem exec_composeBMid_invalid (hm : s.midValid = false) :
    exec .composeBMid s = .next (s.faultEntry .midInvalid) := by
  rw [exec, execComposeBMid, composeBMid, hm, Bool.not_false, State.guarded_true]

theorem exec_composeBMid_outOfRange (hm : s.midValid = true)
    (h : 4096 < s.arg0.toNat + 80 ∨ 4096 < s.arg2.toNat + 32) :
    exec .composeBMid s = .next (s.faultEntry .bufRange) := by
  rw [exec, execComposeBMid, composeBMid_of_midValid _ hm]
  exact congrArg Host.Outcome.next (guarded_composeRanges_fail [] _ h)

theorem exec_composeBMid (hm : s.midValid = true) (hsrc : s.arg0.toNat + 80 ≤ 4096) (hdst : s.arg2.toNat + 32 ≤ 4096) :
    exec .composeBMid s =
      .next (s.composed Config.chip (chainBMid Config.chip s.midS (s.headerAt Config.chip s.arg0)) 0) := by
  rw [exec, execComposeBMid, composeBMid_of_midValid _ hm]
  exact congrArg Host.Outcome.next (guarded_composeRanges_pass [] _ hsrc hdst)

theorem exec_midstateB_outOfRange (h : 4096 < s.arg0.toNat + 80) :
    exec .midstateB s = .next (s.faultEntry .bufRange) := by
  rw [exec, execMidstateB, midstateB, rangeCheck_fails h, State.guarded_true]

theorem exec_midstateB (h : s.arg0.toNat + 80 ≤ 4096) :
    exec .midstateB s = .next (s.setMidstate (midstateOf Config.chip (s.headerAt Config.chip s.arg0))).complete := by
  rw [exec, execMidstateB, midstateB, rangeCheck_passes h, State.guarded_false, State.guarded_nil]

end Exec

/-! ### Who writes MIDREG (R186) -/

theorem Effect.midreg {s t : State} {i : Instr} (e : Effect s i t) (hi : i ≠ .midstateB) :
    t.midValid = s.midValid ∧ t.midS = s.midS := by
  cases e with
  | midstate => exact absurd rfl hi
  | _ => exact ⟨rfl, rfl⟩

theorem hostStep_midreg {hs : HostStep} {s t : State} (hne : hs ≠ .reset) (h : hostStep Config.chip hs s = .next t) :
    t.midValid = s.midValid ∧ t.midS = s.midS := by
  obtain ⟨hr, -⟩ | ⟨v, rfl⟩ | ⟨-, f, rfl⟩ | rfl | ⟨-, -, w, rfl⟩ | ⟨-, i, v, rfl⟩ | ⟨v, rfl⟩ | ⟨-, a, bs, rfl⟩ :=
    hostStep_cases h
  · exact absurd hr hne
  · exact ⟨rfl, rfl⟩
  · exact ⟨rfl, rfl⟩
  · exact ⟨rfl, rfl⟩
  · exact ⟨rfl, rfl⟩
  · exact ⟨State.setArg_midValid s i v, State.setArg_midS s i v⟩
  · exact ⟨rfl, rfl⟩
  · exact ⟨rfl, rfl⟩

/-- STATUS.MIDVALID is bit 3 (R23, R27). -/
theorem statusWord_getLsbD_three (s : State) : s.statusWord.getLsbD 3 = s.midValid := by
  rw [State.statusWord]
  simp only [BitVec.getLsbD_append]
  simp

/-! ### The obligations on COMPOSE and MIDSTATE -/

/-- Settles O28: the header is read and the stages run on the state before. -/
theorem composeBWritesTheFourStageDigest : Obligations.ComposeBWritesTheFourStageDigest := by
  refine ⟨rfl, fun s => ⟨exec_composeB_outOfRange, fun hsrc hdst => ?_⟩⟩
  obtain ⟨hdigest, hbytes⟩ := digest_written s (chainB_length Config.chip (s.headerAt Config.chip s.arg0)) hdst
  exact ⟨_, _, _, _, _, exec_composeB hsrc hdst, rfl, rfl, rfl, rfl, hdigest, hbytes, rfl⟩

/-- Settles O29: by the outcomes of its checks; the header is read and the stages run on the state before. -/
theorem composeBMidResumesFromTheMidstate : Obligations.ComposeBMidResumesFromTheMidstate := by
  refine ⟨rfl, fun s => ⟨exec_composeBMid_invalid, exec_composeBMid_outOfRange, fun hm hsrc hdst => ?_⟩⟩
  obtain ⟨hdigest, hbytes⟩ :=
    digest_written s (chainBMid_length Config.chip s.midS (s.headerAt Config.chip s.arg0)) hdst
  exact ⟨_, _, _, _, _, exec_composeBMid hm hsrc hdst, rfl, rfl, rfl, rfl, hdigest, hbytes, rfl⟩

/-- Settles O30: by its range check, the effects of the other commands, and the host's accesses. -/
theorem midstateHoldsTheAbsorbedPrefix : Obligations.MidstateHoldsTheAbsorbedPrefix := by
  refine ⟨rfl, fun s => ⟨exec_midstateB_outOfRange, fun hsrc => ?_⟩, fun i s t hi h => (exec_effect h).midreg hi,
    fun hs s t h => ?_⟩
  · exact ⟨_, exec_midstateB hsrc, rfl, statusWord_getLsbD_three _⟩
  · split
    · subst hs
      cases h
      rfl
    · exact hostStep_midreg ‹_› h

/-- Settles O31: by the midstate law on the header that joins the first bytes of `h0` and the rest of `h`. -/
theorem midstateReplacesThePrefix : Obligations.MidstateReplacesThePrefix :=
  fun _ _ _ _ hcfg h0len hlen =>
    ⟨rfl, chainBMid_midstateOf hcfg h0len hlen, chainBMid_midstateOf_of_prefix hcfg h0len hlen⟩

end Sys2Proof.Machine

/-!
SUPPORT. The midstate is advisory: a fresh MIDREG gives the digest of the whole header, and the writes of TEST and SEARCH leave it
fresh (spec/42_composer_b.md R184, R185, R189, spec/43_harness.md R202-R207).
-/

namespace Sys2Proof.Machine

/-! ### The header's first 76 bytes -/

theorem swapWords_take : ∀ (k : Nat) (img : Bytes), (swapWords img).take (4 * k) = swapWords (img.take (4 * k))
  | 0, _ => rfl
  | k + 1, a :: b :: c :: d :: rest => by
    have ih := swapWords_take k rest
    simp only [swapWords, Nat.mul_succ, List.take_succ_cons, ih]
  | k + 1, [] => rfl
  | k + 1, [_] => rfl
  | k + 1, [_, _] => rfl
  | k + 1, [_, _, _] => rfl

/-- Normalization works word by word (R195). -/
theorem normHeader_take (cfg : Config) (k : Nat) (img : Bytes) :
    (normHeader cfg img).take (4 * k) = normHeader cfg (img.take (4 * k)) := by
  unfold normHeader
  split
  · rfl
  · exact swapWords_take k img

theorem State.memRead_take (s : State) (a : Nat) {m n : Nat} (h : m ≤ n) : (s.memRead a n).take m = s.memRead a m := by
  rw [State.memRead, ← List.map_take, List.take_range, Nat.min_eq_left h, State.memRead]

/-- The 76 bytes the midstate covers are those at the header's address. -/
theorem headerAt_take (s : State) (cfg : Config) (a : Word) :
    (s.headerAt cfg a).take 76 = normHeader cfg (s.memRead a.toNat 76) := by
  rw [State.headerAt, normHeader_take cfg 19, State.memRead_take s _ (by decide)]

/-! ### Checks and effects -/

/-- Under the same checks, effects that look alike on the state give states that look alike. -/
theorem State.guarded_congr {α : Type} (view : State → α) {s : State} {e e' : State → State}
    (h : view (e s) = view (e' s)) (checks : List (Bool × FaultCode)) :
    view (s.guarded checks e) = view (s.guarded checks e') := by
  unfold State.guarded
  split
  · rfl
  · exact h

/-- With MIDREG valid, the form of the command makes no difference to its checks. -/
theorem recordChecks_of_midValid (cfg : Config) {s : State} (hm : s.midValid = true) (mid : Bool) :
    recordChecks cfg s mid = recordChecks cfg s false := by
  simp only [recordChecks, hm, Bool.not_true, Bool.and_false]

theorem harnessChecks_of_midValid (cfg : Config) {s : State} (hm : s.midValid = true) (sel : Composer) (mid : Bool) :
    harnessChecks cfg s sel mid = harnessChecks cfg s sel false := by
  rw [harnessChecks, recordChecks_of_midValid cfg hm, harnessChecks]

theorem search_of_started (cfg : Config) (sel : Composer) (mid : Bool) {s : State} (h : s.srch.started = true) :
    search cfg sel mid s = searchAttempt cfg s :=
  if_pos h

theorem search_of_not_started (cfg : Config) (sel : Composer) (mid : Bool) {s : State} (h : s.srch.started = false) :
    search cfg sel mid s = searchStart cfg sel mid s :=
  if_neg (by simp [h])

/-- What follows an attempt's digest does not look at SRCH.mid. -/
theorem withMid_afterAttempt (b c : Bool) (s : State) (cfg : Config) (d : Bytes) :
    withMid b ((withMid c s).afterAttempt cfg d) = (withMid b s).afterAttempt cfg d := by
  rw [State.afterAttempt, apply_ite (withMid b), apply_ite (withMid b)]
  rfl

end Sys2Proof.Machine

namespace Sys2Proof

open Sys2Proof.Machine

variable {s : State} {wr : Word}

/-! ### What keeps a midstate fresh -/

/-- Only the 76 bytes at the header's address count. -/
theorem freshMidstate_iff : FreshMidstate s wr ↔
    s.midValid = true ∧ s.midS = Config.chip.midAbsorb (normHeader Config.chip (s.memRead wr.toNat 76)) := by
  rw [FreshMidstate, ← headerAt_take, State.headerAt]

/-- A write past those bytes, of the nonce or the digest slot, leaves the midstate fresh. -/
theorem FreshMidstate.memWrite (h : FreshMidstate s wr) {a : Nat} (ha : wr.toNat + 76 ≤ a) (bs : Bytes) :
    FreshMidstate (s.memWrite Config.chip a bs) wr := by
  rw [freshMidstate_iff, State.memRead_memWrite_disjoint s (.inl ha)]
  exact freshMidstate_iff.1 h

theorem FreshMidstate.setNonce (h : FreshMidstate s wr) (n : Word) : FreshMidstate (s.setNonce Config.chip wr n) wr :=
  h.memWrite (Nat.le_refl _) _

theorem FreshMidstate.setDigestSlot (h : FreshMidstate s wr) (d : Bytes) :
    FreshMidstate (s.setDigestSlot Config.chip wr d) wr :=
  h.memWrite (by omega) _

theorem FreshMidstate.nextNonce (h : FreshMidstate s s.srch.wr) : FreshMidstate (s.nextNonce Config.chip) s.srch.wr :=
  FreshMidstate.setNonce (s := s.setSrch { s.srch with n := s.srch.n + 1 }) h _

theorem FreshMidstate.afterAttempt (h : FreshMidstate s s.srch.wr) (d : Bytes) :
    FreshMidstate (s.afterAttempt Config.chip d) (s.afterAttempt Config.chip d).srch.wr := by
  obtain ⟨-, e⟩ | ⟨-, -, e⟩ | ⟨-, -, -, e⟩ := afterAttempt_cases s Config.chip d <;> rw [e]
  · exact h.setDigestSlot d
  · exact h.setDigestSlot d
  · exact h

/-! ### What a fresh midstate gives -/

theorem FreshMidstate.chainBMid_eq (h : FreshMidstate s wr) :
    chainBMid Config.chip s.midS (s.headerAt Config.chip wr) = chainB Config.chip (s.headerAt Config.chip wr) := by
  obtain ⟨-, hS⟩ := h
  rw [hS]
  exact chainBMid_midstateOf_of_prefix chip_wellFormed (headerAt_length ..) (headerAt_length ..) rfl

/-- Both forms of the harness's chain give the same digest (R185, R200). -/
theorem FreshMidstate.chain_eq (h : FreshMidstate s wr) (mid : Bool) :
    s.chain Config.chip .B mid wr = .ok (chainB Config.chip (s.headerAt Config.chip wr), 0) := by
  cases mid
  · rfl
  · rw [State.chain, h.chainBMid_eq]

theorem FreshMidstate.composeBMid_eq (h : FreshMidstate s s.arg0) :
    composeBMid Config.chip s = composeB Config.chip s := by
  rw [composeBMid_of_midValid _ h.1, composeB]
  exact State.guarded_congr id (by rw [h.chainBMid_eq]) _

theorem FreshMidstate.test_eq (h : FreshMidstate s s.arg0) :
    test Config.chip .B true s = test Config.chip .B false s := by
  have hnonce := h.setNonce s.arg2
  rw [test, test, harnessChecks_of_midValid _ h.1]
  refine State.guarded_congr id ?_ _
  rw [hnonce.chain_eq true, hnonce.chain_eq false]

theorem FreshMidstate.regen_eq (h : FreshMidstate s s.arg0) :
    regen Config.chip .B true s = regen Config.chip .B false s := by
  rw [regen, regen, recordChecks_of_midValid _ h.1]
  refine State.guarded_congr id ?_ _
  rw [h.chain_eq true, h.chain_eq false]

/-- The start steps differ in the bit they latch. -/
theorem FreshMidstate.searchStart_eq (h : FreshMidstate s s.arg0) :
    withMid false (searchStart Config.chip .B true s) = withMid false (searchStart Config.chip .B false s) := by
  rw [searchStart, searchStart, harnessChecks_of_midValid _ h.1]
  refine State.guarded_congr (withMid false) ?_ _
  rfl

/-- An attempt of Composer B, with the midstate used or not. -/
theorem FreshMidstate.searchAttempt_eq (h : FreshMidstate s s.srch.wr) (hsel : s.srch.sel = .B) (mid : Bool) :
    searchAttempt Config.chip (withMid mid s) = (withMid mid (s.nextNonce Config.chip)).afterAttempt Config.chip
      (chainB Config.chip ((s.nextNonce Config.chip).headerAt Config.chip s.srch.wr)) := by
  have hnext : FreshMidstate ((withMid mid s).nextNonce Config.chip) s.srch.wr := h.nextNonce
  have hchain : ((withMid mid s).nextNonce Config.chip).chain Config.chip (withMid mid s).srch.sel mid s.srch.wr = _ :=
    hsel ▸ hnext.chain_eq mid
  exact congrArg ((withMid mid s).orFault · _) hchain

/-- Settles O32: a fresh midstate gives the chain's own digest, and no write of TEST or SEARCH touches the bytes it covers. -/
theorem midstateChangesNoResult : Obligations.MidstateChangesNoResult := by
  refine ⟨fun s t hsrc he => ?_, fun s h => ⟨?_, ?_, ?_, fun hs => ?_⟩, fun s hs hsel _ h => ?_⟩
  · rw [exec_midstateB hsrc] at he
    cases he
    exact ⟨rfl, rfl⟩
  · exact congrArg Host.Outcome.next h.composeBMid_eq
  · exact congrArg Host.Outcome.next h.test_eq
  · exact congrArg Host.Outcome.next h.regen_eq
  · refine ⟨_, _, rfl, rfl, ?_⟩
    rw [search_of_not_started _ _ _ hs, search_of_not_started _ _ _ hs]
    exact h.searchStart_eq
  · refine ⟨_, _, rfl, rfl, ?_⟩
    rw [search_of_started _ _ _ (s := withMid true s) hs, search_of_started _ _ _ (s := withMid false s) hs,
      h.searchAttempt_eq hsel, h.searchAttempt_eq hsel]
    exact ⟨withMid_afterAttempt .., FreshMidstate.afterAttempt (s := withMid true (s.nextNonce Config.chip)) h.nextNonce _⟩

end Sys2Proof

/-!
SUPPORT. The operands of the harness: normalization of a header image under each byte order, the nonce field, the work record's
writes, and the verdict (spec/43_harness.md R195, R196, R200, R201).
-/

namespace Sys2Proof.Machine

/-! ### Normalization (R195) -/

theorem swapWords_swapWords : ∀ img : Bytes, swapWords (swapWords img) = img
  | _ :: _ :: _ :: _ :: rest => by simp only [swapWords, swapWords_swapWords rest]
  | [] => rfl
  | [_] => rfl
  | [_, _] => rfl
  | [_, _, _] => rfl

theorem normHeader_normHeader (cfg : Config) (img : Bytes) : normHeader cfg (normHeader cfg img) = img := by
  unfold normHeader
  split
  · rfl
  · exact swapWords_swapWords img

/-- Byte `b` of a whole word is byte `3 - b` of the image's word. -/
theorem swapWords_getD {b : Nat} (hb : b ≤ 3) : ∀ {i : Nat} {img : Bytes}, 4 * i + 4 ≤ img.length →
    (swapWords img).getD (4 * i + b) 0 = img.getD (4 * i + 3 - b) 0
  | 0, a :: c :: d :: e :: rest, _ => by interval_cases b <;> rfl
  | i + 1, a :: c :: d :: e :: rest, h => by
    have ih := swapWords_getD hb (i := i) (img := rest) (by simp at h; omega)
    rw [swapWords, show 4 * (i + 1) + b = 4 * i + b + 4 by omega, show 4 * (i + 1) + 3 - b = 4 * i + 3 - b + 4 by omega]
    simpa only [List.getD_cons_succ] using ih
  | _, [], h => by simp at h
  | _, [_], h => by simp at h
  | _, [_, _], h => by simp at h
  | _, [_, _, _], h => by simp at h

theorem swapWords_drop : ∀ (k : Nat) (img : Bytes), (swapWords img).drop (4 * k) = swapWords (img.drop (4 * k))
  | 0, _ => rfl
  | k + 1, _ :: _ :: _ :: _ :: rest => swapWords_drop k rest
  | _ + 1, [] => rfl
  | _ + 1, [_] => rfl
  | _ + 1, [_, _] => rfl
  | _ + 1, [_, _, _] => rfl

theorem normHeader_drop (cfg : Config) (k : Nat) (img : Bytes) :
    (normHeader cfg img).drop (4 * k) = normHeader cfg (img.drop (4 * k)) := by
  unfold normHeader
  split
  · rfl
  · exact swapWords_drop k img

/-- Settles O33: each order by its definition. -/
theorem normalizationByByteOrder : Obligations.NormalizationByByteOrder := by
  refine fun cfg img hlen => ⟨fun ho => ?_, fun ho i b hi hb => ?_, ?_, normHeader_normHeader cfg img⟩
  · rw [normHeader, ho]
  · rw [normHeader, ho]
    exact swapWords_getD hb (by omega)
  · rw [norm_length, hlen]

/-! ### The nonce field (R196) -/

/-- The nonce field normalizes to the big-endian nonce. -/
theorem normHeader_nonceBytes (cfg : Config) (n : Word) : normHeader cfg (nonceBytes cfg n) = be32 n := by
  unfold normHeader nonceBytes
  split <;> rfl

theorem State.memRead_drop (s : State) (a m n : Nat) : (s.memRead a (m + n)).drop m = s.memRead (a + m) n := by
  simp [State.memRead, List.range_add, Nat.add_assoc]

section Record

variable {cfg : Config} {wr : Word} (s : State) (n : Word)

theorem setNonce_nonceField (h : wr.toNat + 80 ≤ cfg.bufSize) :
    (s.setNonce cfg wr n).memRead (wr.toNat + 76) 4 = nonceBytes cfg n :=
  s.memRead_memWrite_same (nonceBytes_length cfg n) (by omega)

theorem setNonce_byteAt {x : Nat} (hx : x < wr.toNat + 76 ∨ wr.toNat + 80 ≤ x) :
    (s.setNonce cfg wr n).byteAt x = s.byteAt x :=
  s.byteAt_memWrite_outside (by rw [nonceBytes_length]; omega)

end Record

/-- Settles O34: the last word of the header is the nonce field, and SETNONCE is one MemWrite of it. -/
theorem setNonceWritesTheNonceField : Obligations.SetNonceWritesTheNonceField := by
  refine fun cfg s wr n h => ⟨fun ho => ?_, fun ho => ?_, ?_, fun x hx => setNonce_byteAt s n hx, rfl⟩
  · rw [setNonce_nonceField s n h, nonceBytes, ho]
  · rw [setNonce_nonceField s n h, nonceBytes, ho]
  · calc (normHeader cfg ((s.setNonce cfg wr n).memRead wr.toNat 80)).drop 76
        = normHeader cfg (((s.setNonce cfg wr n).memRead wr.toNat 80).drop 76) := normHeader_drop cfg 19 _
      _ = normHeader cfg (nonceBytes cfg n) := by rw [State.memRead_drop _ _ 76 4, setNonce_nonceField s n h]
      _ = be32 n := normHeader_nonceBytes cfg n

/-! ### The verdict (R201) -/

theorem classify_of_invalid {m : Word} (h : 0xFFFF < m.toNat) (tm : Word) : classify m tm = 0xFFFFFFFF :=
  if_pos (show diff1.toNat < m.toNat from h)

theorem classify_of_valid {m : Word} (h : m.toNat ≤ 0xFFFF) (tm : Word) : classify m tm = if tm < m then 0 else 1 :=
  if_neg (BitVec.not_lt.2 (BitVec.le_def.2 h))

theorem classify_eq_one_iff (m tm : Word) : classify m tm = 1 ↔ m.toNat ≤ min tm.toNat 0xFFFF := by
  rw [Nat.le_min]
  obtain h | h := Nat.lt_or_ge 0xFFFF m.toNat
  · rw [classify_of_invalid h]
    exact iff_of_false (by decide) (by omega)
  · rw [classify_of_valid h, and_iff_left h, ← BitVec.le_def, ← BitVec.not_lt]
    split <;> simp [*]

/-- Settles O35: by the two comparisons of CLASSIFY. -/
theorem verdictOfATest : Obligations.VerdictOfATest := by
  refine fun m tm => ⟨fun h => classify_of_invalid h tm, fun h hlt => ?_, fun h hle => ?_⟩
  · rw [classify_of_valid h, if_pos (BitVec.lt_def.2 hlt)]
  · rw [classify_of_valid h, if_neg (BitVec.not_lt.2 (BitVec.le_def.2 hle))]

/-! ### The work record and its chain (R44, R200) -/

/-- The chain reads the header and MIDREG only. -/
theorem State.chain_congr {s t : State} {cfg : Config} {wr : Word} (hh : t.headerAt cfg wr = s.headerAt cfg wr)
    (hm : t.midS = s.midS) (sel : Composer) (mid : Bool) : t.chain cfg sel mid wr = s.chain cfg sel mid wr := by
  cases sel <;> cases mid <;> simp only [State.chain, hh, hm]

/-- The digest slot lies behind the header. -/
theorem State.memRead_setDigestSlot (s : State) (cfg : Config) {wr : Word} {a n : Nat} (h : a + n ≤ wr.toNat + 80)
    (d : Bytes) : (s.setDigestSlot cfg wr d).memRead a n = s.memRead a n :=
  s.memRead_memWrite_disjoint (.inl h)

theorem State.chain_setDigestSlot (s : State) (cfg : Config) (wr : Word) (d : Bytes) (sel : Composer) (mid : Bool) :
    (s.setDigestSlot cfg wr d).chain cfg sel mid wr = s.chain cfg sel mid wr :=
  State.chain_congr (congrArg (normHeader cfg) (s.memRead_setDigestSlot cfg (Nat.le_refl _) d)) rfl sel mid

/-- The index that goes with a digest: that of the header's timestamp, or 0. -/
theorem chain_chip_index {s : State} {sel : Composer} {mid : Bool} {wr : Word} {d : Bytes} {j : Word}
    (h : s.chain Config.chip sel mid wr = .ok (d, j)) :
    (sel = .A → j = BitVec.ofNat 32 (permIndexOf Config.chip (timestampOf (s.headerAt Config.chip wr)))) ∧
      (sel = .B → j = 0) := by
  cases sel with
  | A =>
    rw [State.chain, chainA_chip] at h
    cases h
    exact ⟨fun _ => rfl, by simp⟩
  | B => cases mid <;> (cases h; exact ⟨by simp, fun _ => rfl⟩)

/-- A record in range after the writes of TEST or of an attempt that ends: the nonce, the digest, and every other byte of BUF. -/
theorem record_written (s : State) {wr : Word} (hwr : wr.toNat + 112 ≤ 4096) (n : Word) {d : Bytes} (hd : d.length = 32) :
    ((s.setNonce Config.chip wr n).setDigestSlot Config.chip wr d).memRead (wr.toNat + 76) 4 = nonceBytes Config.chip n ∧
    ((s.setNonce Config.chip wr n).setDigestSlot Config.chip wr d).memRead (wr.toNat + 80) 32 = d ∧
    ∀ x, x < wr.toNat + 76 ∨ wr.toNat + 112 ≤ x →
      ((s.setNonce Config.chip wr n).setDigestSlot Config.chip wr d).byteAt x = s.byteAt x := by
  have hheader : wr.toNat + 80 ≤ Config.chip.bufSize := by rw [chip_bufSize]; omega
  obtain ⟨hslot, hbytes⟩ := digest_written (s.setNonce Config.chip wr n) hd (a := wr.toNat + 80) (by omega)
  refine ⟨?_, hslot, fun x hx => ?_⟩
  · rw [State.memRead_setDigestSlot _ _ (a := wr.toNat + 76) (n := 4) (Nat.le_refl _), setNonce_nonceField s n hheader]
  · exact (hbytes x (by omega)).trans (setNonce_byteAt s n (by omega))

end Sys2Proof.Machine

/-!
SUPPORT. TEST, REGEN and the start step of SEARCH by outcome: the order of their checks, and what they leave on a record in range
(spec/43_harness.md R202, R203, R207).
-/

namespace Sys2Proof.Machine

/-! ### The checks of the harness on the chip, in order (R222) -/

section Checks

variable {s : State} {sel : Composer} {mid : Bool} {rest : List (Bool × FaultCode)} {effect : State → State}

theorem guarded_recordChecks_midInvalid (hmid : mid = true) (hm : s.midValid = false) :
    s.guarded (recordChecks Config.chip s mid ++ rest) effect = s.faultEntry .midInvalid := by
  rw [recordChecks, hmid, hm]
  rfl

theorem guarded_harnessChecks_midInvalid (hmid : mid = true) (hm : s.midValid = false) :
    s.guarded (harnessChecks Config.chip s sel mid) effect = s.faultEntry .midInvalid :=
  guarded_recordChecks_midInvalid hmid hm

/-- The chip's table has no bad selector (R164). -/
theorem guarded_selectorCheck_chip : s.guarded (selectorCheck Config.chip s sel) effect = effect s := by
  rw [selectorCheck, chip_selBad, Bool.and_false]
  rfl

variable (hm : mid = true → s.midValid = true)

include hm

theorem recordChecks_of_allowed : recordChecks Config.chip s mid = recordChecks Config.chip s false := by
  cases mid
  · rfl
  · exact recordChecks_of_midValid _ (hm rfl) true

theorem guarded_recordChecks_allowed (hwr : s.arg0.toNat + 112 ≤ 4096) :
    s.guarded (recordChecks Config.chip s mid ++ rest) effect = s.guarded rest effect := by
  rw [recordChecks_of_allowed hm, guarded_recordChecks_pass _ _ hwr]

theorem guarded_recordChecks_outOfRange (hwr : 4096 < s.arg0.toNat + 112) :
    s.guarded (recordChecks Config.chip s mid ++ rest) effect = s.faultEntry .bufRange := by
  rw [recordChecks_of_allowed hm, recordChecks, rangeCheck_fails hwr]
  rfl

theorem guarded_harnessChecks_outOfRange (h : 4096 < s.arg0.toNat + 112 ∨ 4096 < s.arg1.toNat + 32) :
    s.guarded (harnessChecks Config.chip s sel mid) effect = s.faultEntry .bufRange := by
  rw [harnessChecks]
  obtain hwr | hwr := Nat.lt_or_ge 4096 (s.arg0.toNat + 112)
  · exact guarded_recordChecks_outOfRange hm hwr
  · rw [guarded_recordChecks_allowed hm hwr, rangeCheck_fails (h.resolve_left (by omega)), State.guarded_true]

theorem guarded_harnessChecks_pass (hwr : s.arg0.toNat + 112 ≤ 4096) (hta : s.arg1.toNat + 32 ≤ 4096) :
    s.guarded (harnessChecks Config.chip s sel mid) effect = effect s := by
  rw [harnessChecks, guarded_recordChecks_allowed hm hwr, rangeCheck_passes hta, State.guarded_false,
    guarded_selectorCheck_chip]

end Checks

/-! ### The commands of one form -/

section Forms

variable {i : Instr} {sel : Composer} {mid : Bool}

theorem testPerforms (hi : ∀ s, exec i s = .next (test Config.chip sel mid s)) : TestPerforms i sel mid := by
  refine fun s => ⟨fun hmid hm => ?_, fun hm hr => ?_, fun hm hwr hta => ?_⟩ <;> rw [hi, test]
  · rw [guarded_harnessChecks_midInvalid hmid hm]
  · rw [guarded_harnessChecks_outOfRange hm hr]
  · obtain ⟨d, j, hchain⟩ := chain_chip_ok (s.setNonce Config.chip s.arg0 s.arg2) sel mid s.arg0
    obtain ⟨hnonce, hslot, hbytes⟩ := record_written s hwr s.arg2 (chain_digest_length hchain)
    rw [guarded_harnessChecks_pass hm hwr hta, hchain, State.orFault_ok]
    exact ⟨_, d, j, rfl, rfl, hnonce, hslot, hbytes, rfl⟩

theorem regenPerforms (hi : ∀ s, exec i s = .next (regen Config.chip sel mid s)) : RegenPerforms i sel mid := by
  refine fun s => ⟨fun hmid hm => ?_, fun hm hr => ?_, fun hm hwr => ?_⟩ <;> rw [hi, regen]
  · rw [guarded_recordChecks_midInvalid hmid hm]
  · rw [guarded_recordChecks_outOfRange hm hr]
  · obtain ⟨d, j, hchain⟩ := chain_chip_ok s sel mid s.arg0
    obtain ⟨hA, hB⟩ := chain_chip_index hchain
    obtain ⟨hslot, hbytes⟩ := digest_written s (a := s.arg0.toNat + 80) (chain_digest_length hchain) (by omega)
    rw [guarded_recordChecks_allowed hm hwr, guarded_selectorCheck_chip, hchain, State.orFault_ok]
    exact ⟨_, d, j, rfl, rfl, hA, hB, hslot, fun x hx => hbytes x (by omega), rfl⟩

/-- What follows an attempt's digest raises no fault. -/
theorem afterAttempt_fault (s : State) (cfg : Config) (d : Bytes) :
    (s.afterAttempt cfg d).fault = s.fault ∧ (s.afterAttempt cfg d).fcode = s.fcode := by
  obtain ⟨-, e⟩ | ⟨-, -, e⟩ | ⟨-, -, -, e⟩ := afterAttempt_cases s cfg d <;> rw [e] <;> exact ⟨rfl, rfl⟩

theorem searchStarts (hi : ∀ s, exec i s = .next (search Config.chip sel mid s)) : SearchStarts i sel mid := by
  refine fun s => ⟨fun hs => ?_, fun hs => ?_⟩ <;> rw [hi]
  · rw [search_of_not_started _ _ _ hs, searchStart]
    refine ⟨fun hmid hm => ?_, fun hm hr => ?_, fun hm hwr hta => ?_⟩
    · rw [guarded_harnessChecks_midInvalid hmid hm]
    · rw [guarded_harnessChecks_outOfRange hm hr]
    · rw [guarded_harnessChecks_pass hm hwr hta]
      rfl
  · obtain ⟨d, -, -, e⟩ := searchAttempt_chip s
    rw [search_of_started _ _ _ hs, e]
    exact ⟨_, rfl, afterAttempt_fault _ _ _⟩

end Forms

/-! ### The obligations on TEST, REGEN and the start of SEARCH -/

/-- Settles O36: the three forms by one lemma; the target is read of the state before. -/
theorem testWritesNonceDigestAndVerdict : Obligations.TestWritesNonceDigestAndVerdict :=
  ⟨rfl, rfl, rfl, testPerforms fun _ => rfl, testPerforms fun _ => rfl, testPerforms fun _ => rfl⟩

/-- Settles O37: the three forms by one lemma. -/
theorem regenWritesTheDigestSlot : Obligations.RegenWritesTheDigestSlot :=
  ⟨rfl, rfl, rfl, regenPerforms fun _ => rfl, regenPerforms fun _ => rfl, regenPerforms fun _ => rfl⟩

/-- Settles O40: the three forms by one lemma. -/
theorem searchStartLoadsTheSearchRegisters : Obligations.SearchStartLoadsTheSearchRegisters :=
  ⟨rfl, rfl, rfl, searchStarts fun _ => rfl, searchStarts fun _ => rfl, searchStarts fun _ => rfl⟩

end Sys2Proof.Machine

/-!
SUPPORT. The attempts of SEARCH: what one does, what a finished search leaves, that TEST agrees with it, and that the search ends
at its bound (spec/43_harness.md R204-R206, R208).
-/

namespace Sys2Proof.Machine

/-! ### An attempt (R204) -/

section Attempt

variable {i : Instr} {s : State}

theorem exec_search_of_started (hi : i ∈ searchCommands) (hs : s.srch.started = true) :
    exec i s = .next (searchAttempt Config.chip s) := by
  simp only [searchCommands, List.mem_cons, List.not_mem_nil, or_false] at hi
  obtain rfl | rfl | rfl := hi <;> exact congrArg Host.Outcome.next (search_of_started _ _ _ hs)

/-- What an attempt of the search in `s`, whose digest is `d`, may leave (R204). -/
inductive Attempted (s : State) (d : Bytes) : State → Prop where
  /-- The digest passed. -/
  | found (h : digestMsw Config.chip d ≤ s.srch.tmsw) :
      Attempted s d ((s.nextNonce Config.chip).finishSearch Config.chip true d)
  /-- It did not, and the bound is reached or the host cancelled. -/
  | stopped (h : s.srch.tmsw < digestMsw Config.chip d) (hstop : s.srch.max ≤ s.srch.n + 1 ∨ s.cancel = true) :
      Attempted s d ((s.nextNonce Config.chip).finishSearch Config.chip false d)
  /-- It did not, and the search goes on. -/
  | goesOn (h : s.srch.tmsw < digestMsw Config.chip d) (hn : s.srch.n + 1 < s.srch.max) (hc : s.cancel = false) :
      Attempted s d (s.nextNonce Config.chip)

/-- Everything a SEARCH under way can do on the chip, with the digest of the nonce it tries. -/
theorem exec_search_attempted (hi : i ∈ searchCommands) (hs : s.srch.started = true) :
    ∃ t d j, exec i s = .next t ∧ Attempted s d t ∧
      (s.nextNonce Config.chip).chain Config.chip s.srch.sel s.srch.mid s.srch.wr = .ok (d, j) := by
  obtain ⟨d, j, hchain, e⟩ := searchAttempt_chip s
  refine ⟨_, d, j, exec_search_of_started hi hs, ?_, hchain⟩
  rw [e]
  obtain ⟨h, e⟩ | ⟨h, hstop, e⟩ | ⟨h, hn, hc, e⟩ := afterAttempt_cases (s.nextNonce Config.chip) Config.chip d <;>
    rw [e]
  · exact .found h
  · exact .stopped h hstop
  · exact .goesOn h hn hc

/-- A finished record holds the last nonce, and the digest that the chain gives of the header as it now stands (R206). -/
theorem finishSearch_record {d : Bytes} {j : Word} (hwr : s.srch.wr.toNat + 112 ≤ 4096)
    (hchain : (s.nextNonce Config.chip).chain Config.chip s.srch.sel s.srch.mid s.srch.wr = .ok (d, j)) {t : State}
    {found : Bool} (ht : t = (s.nextNonce Config.chip).finishSearch Config.chip found d) :
    t.memRead (s.srch.wr.toNat + 76) 4 = nonceBytes Config.chip (s.srch.n + 1) ∧
    t.chain Config.chip s.srch.sel s.srch.mid s.srch.wr = .ok (d, j) ∧
    t.memRead (s.srch.wr.toNat + 80) 32 = d ∧
    ∀ x, x < s.srch.wr.toNat + 76 ∨ s.srch.wr.toNat + 112 ≤ x → t.byteAt x = s.byteAt x := by
  subst ht
  obtain ⟨hnonce, hslot, hbytes⟩ := record_written (s.setSrch { s.srch with n := s.srch.n + 1 }) hwr (s.srch.n + 1)
    (chain_digest_length hchain)
  exact ⟨hnonce, (State.chain_setDigestSlot ..).trans hchain, hslot, hbytes⟩

end Attempt

/-! ### The obligations on one attempt -/

/-- Settles O41: the next state is that of `afterAttempt`, its comparisons being those of the numbers. -/
theorem searchAttemptTriesOneNonce : Obligations.SearchAttemptTriesOneNonce := by
  rintro i s u hi hs - rfl
  obtain ⟨d, j, hchain, e⟩ := searchAttempt_chip s
  refine ⟨d, j, hchain, ?_⟩
  rw [exec_search_of_started hi hs, e]
  rfl

/-- Settles O42: an attempt that ends the search is one of the two that finish it. -/
theorem finishedSearchLeavesNonceAndDigest : Obligations.FinishedSearchLeavesNonceAndDigest := by
  intro i s t hi hs hwr he hend
  obtain ⟨t', d, j, he', hatt, hchain⟩ := exec_search_attempted hi hs
  obtain rfl : t' = t := Host.Outcome.next.inj (he'.symm.trans he)
  cases hatt with
  | found h =>
    obtain ⟨hnonce, hchain', hslot, hbytes⟩ := finishSearch_record hwr hchain rfl
    exact ⟨rfl, rfl, rfl, hnonce, ⟨d, j, hchain', hslot, iff_of_true rfl h⟩, hbytes⟩
  | stopped h =>
    obtain ⟨hnonce, hchain', hslot, hbytes⟩ := finishSearch_record hwr hchain rfl
    exact ⟨rfl, rfl, rfl, hnonce, ⟨d, j, hchain', hslot, iff_of_false Bool.false_ne_true (BitVec.not_le.2 h)⟩, hbytes⟩
  | goesOn => exact absurd (hs.symm.trans hend) Bool.true_eq_false_eq_False

/-- Settles O43: no digest word is above the largest word, and a cancelled search does not go on. -/
theorem passingTargetOrCancelEndsTheSearch : Obligations.PassingTargetOrCancelEndsTheSearch := by
  intro i s hi hs
  obtain ⟨t, d, -, he, hatt, -⟩ := exec_search_attempted hi hs
  refine ⟨fun htmsw => ⟨t, he, ?_⟩, fun hcancel => ⟨t, he, ?_⟩⟩
  · have hle : ¬ s.srch.tmsw < digestMsw Config.chip d := by rw [htmsw]; bv_omega
    cases hatt with
    | found => exact ⟨rfl, rfl, rfl, rfl, rfl⟩
    | stopped h => exact absurd h hle
    | goesOn h => exact absurd h hle
  · cases hatt with
    | found => exact ⟨rfl, rfl, rfl, rfl, hcancel⟩
    | stopped => exact ⟨rfl, rfl, rfl, rfl, hcancel⟩
    | goesOn _ _ hc => simp [hcancel] at hc

/-! ### TEST and an attempt on one record (R208 item 4) -/

section Agreement

variable {s u : State} {sel : Composer} {mid : Bool} {max : Word}

/-- The registers of a search that tries TEST's nonce next, over TEST's record and target. -/
def State.srchBeforeTested (s : State) (sel : Composer) (mid : Bool) (max : Word) : Srch :=
  { n := s.arg2 - 1
    max := max
    tmsw := readBE32 (s.memRead s.arg1.toNat 4) 0
    wr := s.arg0
    sel := sel
    mid := mid
    started := true }

/-- Such a search writes TEST's nonce. -/
theorem nextNonce_srchBeforeTested :
    (s.setSrch (s.srchBeforeTested sel mid max)).nextNonce Config.chip =
      (s.setNonce Config.chip s.arg0 s.arg2).setSrch { s.srchBeforeTested sel mid max with n := s.arg2 } := by
  have hn : s.arg2 - 1 + 1 = s.arg2 := BitVec.sub_add_cancel _ _
  rw [State.nextNonce, State.setSrch_srch, State.srchBeforeTested, hn]
  rfl

/-- What its attempt leaves, beside what TEST with the same digest leaves. -/
theorem Attempted.agrees {d : Bytes} (h : Attempted (s.setSrch (s.srchBeforeTested sel mid max)) d u) :
    (u.srch.started = false →
      u.buf = ((s.setNonce Config.chip s.arg0 s.arg2).setDigestSlot Config.chip s.arg0 d).buf ∧ u.result = s.arg2) ∧
    ((digestMsw Config.chip d).toNat ≤ (readBE32 (s.memRead s.arg1.toNat 4) 0).toNat ↔
      u.srch.started = false ∧ u.found = true ∧ u.pend = none) := by
  cases h with
  | found h =>
    rw [nextNonce_srchBeforeTested]
    exact ⟨fun _ => ⟨rfl, rfl⟩, iff_of_true h ⟨rfl, rfl, rfl⟩⟩
  | stopped h =>
    rw [nextNonce_srchBeforeTested]
    exact ⟨fun _ => ⟨rfl, rfl⟩, iff_of_false (BitVec.not_le.2 h) fun he => Bool.false_ne_true he.2.1⟩
  | goesOn h =>
    rw [nextNonce_srchBeforeTested]
    exact ⟨fun he => absurd he.symm Bool.false_ne_true,
      iff_of_false (BitVec.not_le.2 h) fun he => Bool.false_ne_true he.1.symm⟩

/-- A TEST that takes no fault leaves a digest of the record with its nonce in the digest slot, and its verdict. -/
theorem test_completed (hf : (test Config.chip sel mid s).fault = false) :
    ∃ d j, (s.setNonce Config.chip s.arg0 s.arg2).chain Config.chip sel mid s.arg0 = .ok (d, j) ∧
      (test Config.chip sel mid s).memRead (s.arg0.toNat + 80) 32 = d ∧
      (test Config.chip sel mid s).buf =
        ((s.setNonce Config.chip s.arg0 s.arg2).setDigestSlot Config.chip s.arg0 d).buf ∧
      (test Config.chip sel mid s).result =
        classify (digestMsw Config.chip d) (readBE32 (s.memRead s.arg1.toNat 4) 0) := by
  obtain ⟨f, e⟩ | ⟨d, j, -, hwr, -, hchain, e⟩ := test_cases Config.chip sel mid s
  · simp [e] at hf
  · rw [inRange_iff, chip_bufSize] at hwr
    obtain ⟨-, hslot, -⟩ := record_written s hwr s.arg2 (chain_digest_length hchain)
    rw [e]
    exact ⟨d, j, hchain, hslot, rfl, rfl⟩

end Agreement

/-- TEST and SEARCH form by form: each TEST is the meaning of its composer and midstate bit. -/
theorem test_search_forms : ∀ p ∈ [(Instr.testA, Instr.searchA, Composer.A, false), (.testB, .searchB, .B, false),
      (.testBMid, .searchBMid, .B, true)],
    (∀ s, exec p.1 s = .next (test Config.chip p.2.2.1 p.2.2.2 s)) ∧ p.2.1 ∈ searchCommands := by
  simp only [List.forall_mem_cons, List.not_mem_nil, false_imp_iff, implies_true, and_true]
  exact ⟨⟨fun _ => rfl, by decide⟩, ⟨fun _ => rfl, by decide⟩, ⟨fun _ => rfl, by decide⟩⟩

/-- Settles O39: TEST and the attempt run the chain on the record with the same nonce. -/
theorem testAgreesWithTheSearchAttempt : Obligations.TestAgreesWithTheSearchAttempt := by
  rintro ⟨i, k, sel, mid⟩ s t u max hp ht hf hu
  obtain ⟨hi, hk⟩ := test_search_forms _ hp
  obtain rfl : test Config.chip sel mid s = t := Host.Outcome.next.inj ((hi s).symm.trans ht)
  obtain ⟨d, j, hchain, hslot, hbuf, hresult⟩ := test_completed hf
  obtain ⟨u', d', j', hu', hatt, hchain'⟩ := exec_search_attempted hk
    (s := s.setSrch (s.srchBeforeTested sel mid max)) rfl
  obtain rfl : u' = u := Host.Outcome.next.inj (hu'.symm.trans hu)
  rw [nextNonce_srchBeforeTested] at hchain'
  obtain ⟨rfl, -⟩ : d' = d ∧ j' = j :=
    Prod.mk.inj (Except.ok.inj (hchain'.symm.trans ((State.chain_congr rfl rfl sel mid).trans hchain)))
  rw [hslot, hbuf, hresult]
  exact ⟨classify_eq_one_iff _ _, hatt.agrees⟩

/-! ### A search ends at its bound (R208 items 1 and 2, R268) -/

section Bound

variable {s t : State} {d : Bytes}

/-- `t` is the end of the search under way in `s`, not past its bound. -/
structure EndsByItsBound (s t : State) : Prop where
  pend    : t.pend = none
  busy    : t.busy = false
  started : t.srch.started = false
  fault   : t.fault = s.fault
  after   : s.srch.n.toNat < t.result.toNat
  upTo    : t.result.toNat ≤ s.srch.max.toNat
  atBound : t.found = false → s.cancel = false → t.result = s.srch.max

theorem toNat_next {n max : Word} (h : n.toNat < max.toNat) : (n + 1).toNat = n.toNat + 1 := by
  bv_omega

/-- Either the attempt ends the search, or it goes on below the bound. -/
theorem Attempted.ends_or_goesOn (h : Attempted s d t) (hn : s.srch.n.toNat < s.srch.max.toNat) :
    EndsByItsBound s t ∨ (t = s.nextNonce Config.chip ∧ s.srch.n.toNat + 1 < s.srch.max.toNat) := by
  have hnext := toNat_next hn
  have hafter : s.srch.n.toNat < (s.srch.n + 1).toNat := by omega
  have hupTo : (s.srch.n + 1).toNat ≤ s.srch.max.toNat := by omega
  cases h with
  | found => exact .inl ⟨rfl, rfl, rfl, rfl, hafter, hupTo, fun hf => absurd hf.symm Bool.false_ne_true⟩
  | stopped _ hstop =>
    refine .inl ⟨rfl, rfl, rfl, rfl, hafter, hupTo, fun _ hc => BitVec.le_antisymm hupTo ?_⟩
    exact hstop.resolve_right (by simp [hc])
  | goesOn _ hlt => exact .inr ⟨rfl, hnext ▸ BitVec.lt_def.1 hlt⟩

theorem Attempted.agenda (h : Attempted s d t) : t.agenda = s.agenda := by
  cases h <;> rfl

/-- The end of the search from the next nonce on is its end. -/
theorem EndsByItsBound.of_nextNonce (h : EndsByItsBound (s.nextNonce Config.chip) t)
    (hn : s.srch.n.toNat < s.srch.max.toNat) : EndsByItsBound s t :=
  ⟨h.pend, h.busy, h.started, h.fault, Nat.lt_of_succ_lt ((toNat_next hn).symm.trans_lt h.after), h.upTo, h.atBound⟩

/-- With nothing on the agenda a search under way makes an attempt: its command is the pending one. -/
theorem step_attempted (h : Inv s) (hs : s.srch.started = true) (ha : s.agenda = []) :
    ∃ t d, step s = .next t ∧ Attempted s d t := by
  obtain ⟨⟨w, hp, hd⟩, -, -⟩ := h.searchStarted hs
  obtain ⟨t, d, -, he, hatt, -⟩ := exec_search_attempted (searchCommand_mem s.srch.sel s.srch.mid) hs
  exact ⟨t, d, ((step_of_agenda_nil ha).trans (engineStep_of_ok hp hd)).trans he, hatt⟩

/-- As many attempts as there are nonces up to the bound end the search. -/
theorem run_endsByItsBound (k : Nat) : ∀ {s : State}, Inv s → s.srch.started = true → s.agenda = [] →
    s.srch.n.toNat < s.srch.max.toNat → s.srch.max.toNat - s.srch.n.toNat = k →
    ∃ t, Sys2Proof.core.run k s = .next t ∧ EndsByItsBound s t := by
  induction k with
  | zero => intro s _ _ _ hn hk; omega
  | succ k ih =>
    intro s h hs ha hn hk
    obtain ⟨t, d, hstep, hatt⟩ := step_attempted h hs ha
    rw [core_run_succ hstep]
    obtain hend | ⟨rfl, hlt⟩ := hatt.ends_or_goesOn hn
    · exact ⟨t, core_run_idle hend.pend (hatt.agenda.trans ha) k, hend⟩
    · have hnext : (s.nextNonce Config.chip).srch.n.toNat = s.srch.n.toNat + 1 := toNat_next hn
      have hmax : (s.nextNonce Config.chip).srch.max = s.srch.max := rfl
      obtain ⟨t, hrun, hend⟩ := ih h.nextNonce hs ha (by rwa [hnext, hmax]) (by rw [hnext, hmax]; omega)
      exact ⟨t, hrun, hend.of_nextNonce hn⟩

end Bound

/-- Settles O44: by induction on the number of nonces up to the bound. -/
theorem searchTerminatesAtItsBound : Obligations.SearchTerminatesAtItsBound := by
  intro s h hs ha hn
  obtain ⟨t, hrun, hend⟩ := run_endsByItsBound _ h hs ha hn rfl
  exact ⟨t, hrun, hend.pend, hend.busy, hend.started, hend.fault, hend.after, hend.upTo, hend.atBound⟩

end Sys2Proof.Machine

/-!
SUPPORT. Fault entry: that a command which faults has made no write, and what fault entry itself writes
(spec/60_exceptions.md R220-R225).
-/

namespace Sys2Proof.Machine

/-- Fault entry is the only effect of a command that sets FAULT (R224). -/
theorem Effect.eq_faultEntry {s t : State} {i : Instr} (e : Effect s i t) (hs : s.fault = false)
    (ht : t.fault = true) : ∃ f, t = s.faultEntry f := by
  cases e with
  | fault _ f => exact ⟨f, rfl⟩
  | _ => exact absurd (hs.symm.trans ht) Bool.false_ne_true

/-- Settles O9: by the effect of the command. -/
theorem faultingCommandWritesNothing : Obligations.FaultingCommandWritesNothing :=
  fun _ _ _ h => (exec_effect h).eq_faultEntry

/-- Settles O8: the codes run; FCODE by whether a fault came before; and with PEND cleared the engine is idle. -/
theorem faultEntryStopsTheBlockAndChangesNothingElse :
    Obligations.FaultEntryStopsTheBlockAndChangesNothingElse := by
  refine ⟨by decide, fun s f => ⟨fun hf => ?_, fun hf => ?_, rfl, engineStep_idle (s.faultEntry_pend f)⟩⟩
  · simp [hf]
  · simp [hf]

end Sys2Proof.Machine

/-!
SUPPORT. Reset by the host, and the orders of commands that make no difference (spec/70_reset_and_hazards.md R250, R261, R264): a
slot command depends on its slot and the bytes it reads only; REGEN stores the digest TEST left.
-/

namespace Sys2Proof.Machine

/-! ### Reset (R250) -/

/-- Settles O55: the host's turn is the reset, whose BUF list is empty. -/
theorem hostResetReachesTheResetState : Obligations.HostResetReachesTheResetState :=
  fun _ _ ha => ⟨_, step_host ha, rfl, fun _ => rfl⟩

/-! ### REGEN after TEST (R264) -/

/-- Storing the bytes that stand there changes no byte. -/
theorem State.byteAt_memWrite_memRead (s : State) (cfg : Config) (a n x : Nat) :
    (s.memWrite cfg a (s.memRead a n)).byteAt x = s.byteAt x := by
  rw [State.byteAt_memWrite, State.memRead_length]
  split
  · rw [s.memRead_getD a n (x - a) (by omega), Nat.add_sub_cancel' (by omega)]
  · rfl

section Forms

variable {s t : State} {sel : Composer} {mid : Bool} {d : Bytes} {j : Word}

/-- A REGEN whose checks pass stores the digest of the record as it stands. -/
theorem regen_chip_eq (hm : mid = true → s.midValid = true) (hwr : s.arg0.toNat + 112 ≤ 4096)
    (hchain : s.chain Config.chip sel mid s.arg0 = .ok (d, j)) :
    regen Config.chip sel mid s = ((s.setDigestSlot Config.chip s.arg0 d).setResult j).complete := by
  rw [regen, guarded_recordChecks_allowed hm hwr, guarded_selectorCheck_chip, hchain, State.orFault_ok]

/-- A TEST that takes no fault leaves a record that passes REGEN's checks, and its digest in the digest slot. -/
theorem test_leaves_digest (ht : test Config.chip sel mid s = t) (hf : t.fault = false) :
    ∃ d j, (mid = true → t.midValid = true) ∧ t.arg0.toNat + 112 ≤ 4096 ∧
      t.chain Config.chip sel mid t.arg0 = .ok (d, j) ∧ t.memRead (t.arg0.toNat + 80) 32 = d := by
  obtain ⟨f, e⟩ | ⟨d, j, hm, hwr, -, hchain, e⟩ := test_cases Config.chip sel mid s <;> obtain rfl := e.symm.trans ht
  · exact absurd hf Bool.true_eq_false_eq_False
  · rw [inRange_iff, chip_bufSize] at hwr
    obtain ⟨-, hslot, -⟩ := record_written s hwr s.arg2 (chain_digest_length hchain)
    have hheader := (State.chain_setDigestSlot _ _ _ d sel mid).trans hchain
    exact ⟨d, j, hm, hwr, (State.chain_congr rfl rfl sel mid).trans hheader, hslot⟩

end Forms

/-- TEST and REGEN form by form. -/
theorem test_regen_forms : ∀ p ∈ [(Instr.testA, Instr.regenA), (.testB, .regenB), (.testBMid, .regenBMid)],
    ∃ sel mid, (∀ s, exec p.1 s = .next (test Config.chip sel mid s)) ∧
      ∀ s, exec p.2 s = .next (regen Config.chip sel mid s) := by
  simp only [List.forall_mem_cons, List.not_mem_nil, false_imp_iff, implies_true, and_true]
  exact ⟨⟨.A, false, fun _ => rfl, fun _ => rfl⟩, ⟨.B, false, fun _ => rfl, fun _ => rfl⟩,
    ⟨.B, true, fun _ => rfl, fun _ => rfl⟩⟩

/-- Settles O38: REGEN stores the digest that already stands in the slot. -/
theorem regenAfterTestChangesNoByte : Obligations.RegenAfterTestChangesNoByte := by
  intro p s t u hp ht hf hu
  obtain ⟨sel, mid, hp1, hp2⟩ := test_regen_forms p hp
  obtain rfl : test Config.chip sel mid s = t := Host.Outcome.next.inj ((hp1 s).symm.trans ht)
  obtain ⟨d, j, hm, hwr, hchain, rfl⟩ := test_leaves_digest rfl hf
  obtain rfl := (regen_chip_eq hm hwr hchain).symm.trans (Host.Outcome.next.inj ((hp2 _).symm.trans hu))
  exact ⟨State.byteAt_memWrite_memRead _ _ _ _, hf⟩

/-! ### Commands on different slots (R261) -/

/-- The host's writes of ARG0 and ARG1 before a slot command (R29). -/
def State.withArgs (s : State) (a n : Word) : State := { s with arg0 := a, arg1 := n }

/-- A slot command's completion: `d` stored at its ARG0, and `c` in its slot. -/
def State.slotDone (s : State) (k : BitVec 4) (a n : Word) (d : Bytes) (c : Ctx) : State :=
  (((s.withArgs a n).memWrite Config.chip a.toNat d).setSlot k c).complete

section Slots

variable {s t : State} {i : Instr} {j k : BitVec 4} {a n : Word}

theorem mem_slotCommands : i ∈ slotCommands k ↔ i = .dgInit k ∨ i = .dgAbsorb k ∨ i = .dgFinal k := by
  simp [slotCommands]

/-- Checks before an effect that took no fault all passed. -/
theorem checks_pass_of_completed {checks : List (Bool × FaultCode)} {effect : State → State}
    (h : (s.guarded checks effect).fault = false) : ∀ c ∈ checks, c.1 = false := by
  obtain ⟨f, -, e⟩ | ⟨hc, -⟩ := s.guarded_cases checks effect
  · simp [e] at h
  · exact (firstFault_eq_none checks).1 hc

/-- Of the state the checks look at the slot only. -/
theorem slotChecks_congr (cfg : Config) (h : t.slot k = s.slot k) (a : Word) (n : Nat) :
    slotChecks cfg k t a n = slotChecks cfg k s a n := by
  rw [slotChecks, slotChecks, h]

theorem State.memRead_congr_of_bytes {a n : Nat} (h : ∀ x, a ≤ x → x < a + n → t.byteAt x = s.byteAt x) :
    t.memRead a n = s.memRead a n :=
  List.map_congr_left fun i hi => h _ (Nat.le_add_right a i) (Nat.add_lt_add_left (List.mem_range.1 hi) a)

/-- All that the command on slot `k` looks at, but for its ARG registers, is in `t` as it is in `s`: the slot, and the bytes it
reads. -/
structure LooksAlike (k : BitVec 4) (i : Instr) (a n : Word) (s t : State) : Prop where
  slot  : t.slot k = s.slot k
  bytes : ∀ x, slotReads k i a n x → t.byteAt x = s.byteAt x

theorem LooksAlike.symm (h : LooksAlike k i a n s t) : LooksAlike k i a n t s :=
  ⟨h.slot.symm, fun x hx => (h.bytes x hx).symm⟩

theorem LooksAlike.refl (k : BitVec 4) (i : Instr) (a n : Word) (s : State) : LooksAlike k i a n s s :=
  ⟨rfl, fun _ _ => rfl⟩

/-- A slot command that completes stores the same bytes, where it writes, and leaves the same slot from every state that looks
alike to it. -/
theorem exec_slotCommand_local (hi : i ∈ slotCommands k) (h : exec i (s.withArgs a n) = .next t) (hf : t.fault = false) :
    ∃ d c, (∀ x, a.toNat ≤ x → x < a.toNat + d.length → slotWrites k i a x) ∧
      ∀ s', LooksAlike k i a n s s' → exec i (s'.withArgs a n) = .next (s'.slotDone k a n d c) := by
  obtain rfl | rfl | rfl := mem_slotCommands.1 hi <;> obtain rfl := Host.Outcome.next.inj h
  · have hc := checks_pass_of_completed hf
    refine ⟨[], Ctx.init, fun x hlo hhi => absurd hhi (by simpa using hlo), fun s' _ => ?_⟩
    exact congrArg Host.Outcome.next (State.guarded_of_all_false hc)
  · have hc : ∀ c ∈ slotChecks Config.chip k s a n.toNat, c.1 = false := checks_pass_of_completed hf
    refine ⟨[], (s.slot k).absorb Config.chip (s.memRead a.toNat n.toNat),
      fun x hlo hhi => absurd hhi (by simpa using hlo), fun s' ⟨hslot, hread⟩ => ?_⟩
    have hsrc : s'.memRead a.toNat n.toNat = s.memRead a.toNat n.toNat :=
      State.memRead_congr_of_bytes fun x hlo hhi => hread x ⟨rfl, hlo, hhi⟩
    rw [← slotChecks_congr _ hslot] at hc
    rw [← hslot, ← hsrc]
    exact congrArg Host.Outcome.next (State.guarded_of_all_false hc)
  · have hc : ∀ c ∈ slotChecks Config.chip k s a 32, c.1 = false := checks_pass_of_completed hf
    refine ⟨(s.slot k).finalDigest, Ctx.init, fun x hlo hhi => ⟨rfl, hlo, hhi⟩, fun s' ⟨hslot, _⟩ => ?_⟩
    rw [← slotChecks_congr _ hslot] at hc
    rw [← hslot]
    exact congrArg Host.Outcome.next (State.guarded_of_all_false hc)

/-- The completion of a command on slot `j` is out of sight for one on another slot that reads no byte stored. -/
theorem looksAlike_slotDone {a' n' : Word} {d : Bytes} {c : Ctx} (hjk : k ≠ j)
    (h : ∀ x, a.toNat ≤ x → x < a.toNat + d.length → ¬ slotReads k i a' n' x) :
    LooksAlike k i a' n' s (s.slotDone j a n d c) := by
  refine ⟨State.slot_setSlot_other _ hjk c, fun x hx => State.byteAt_memWrite_outside (s.withArgs a n) ?_⟩
  by_contra hin
  exact h x (by omega) (by omega) hx

/-- Two stores that share no byte may be exchanged. -/
theorem State.byteAt_memWrite_comm (s : State) (cfg : Config) {a a' : Nat} {d d' : Bytes}
    (h : ∀ x, a ≤ x → x < a + d.length → ¬ (a' ≤ x ∧ x < a' + d'.length)) (x : Nat) :
    ((s.memWrite cfg a' d').memWrite cfg a d).byteAt x = ((s.memWrite cfg a d).memWrite cfg a' d').byteAt x := by
  simp only [State.byteAt_memWrite]
  split_ifs with hd hd'
  · exact absurd ⟨hd'.1, hd'.2.1⟩ (h x hd.1 hd.2.1)
  · rfl
  · rfl
  · rfl

/-- Completions on two slots, in either order, differ in how BUF is listed and in the ARG registers. -/
theorem slotDone_comm (hjk : j ≠ k) {a' n' : Word} {d d' : Bytes} {c c' : Ctx} :
    (s.slotDone k a' n' d' c').slotDone j a n d c =
      { (s.slotDone j a n d c).slotDone k a' n' d' c' with
        buf := ((s.slotDone k a' n' d' c').slotDone j a n d c).buf
        arg0 := a
        arg1 := n } := by
  have hctx : (s.ctx.set k.toNat c').set j.toNat c = (s.ctx.set j.toNat c).set k.toNat c' :=
    Vector.set_comm _ _ fun e => hjk (BitVec.eq_of_toNat_eq e.symm)
  exact congrArg (fun v => { (s.slotDone k a' n' d' c').slotDone j a n d c with ctx := v }) hctx

end Slots

/-- Settles O22: each command looks at nothing the other writes, so it does the same in the other order. -/
theorem slotCommandsOnDifferentSlotsCommute : Obligations.SlotCommandsOnDifferentSlotsCommute := by
  intro j k i i' a n a' n' s t u hjk hi hi' hw hw' ht hu huf
  have htf : t.fault = false := Bool.eq_false_iff.2 fun htf =>
    Bool.false_ne_true (huf.symm.trans ((exec_effect hu).keeps_fault (s := t.withArgs a' n') htf).1)
  obtain ⟨d, c, hd, hlocal⟩ := exec_slotCommand_local hi ht htf
  obtain ⟨d', c', hd', hlocal'⟩ := exec_slotCommand_local hi' hu huf
  obtain rfl : s.slotDone j a n d c = t :=
    Host.Outcome.next.inj ((hlocal s (.refl ..)).symm.trans ht)
  obtain rfl : (s.slotDone j a n d c).slotDone k a' n' d' c' = u :=
    Host.Outcome.next.inj ((hlocal' _ (.refl ..)).symm.trans hu)
  have hsees : LooksAlike j i a n s (s.slotDone k a' n' d' c') :=
    looksAlike_slotDone hjk fun x hlo hhi => hw' x (hd' x hlo hhi)
  have hsees' : LooksAlike k i' a' n' s (s.slotDone j a n d c) :=
    looksAlike_slotDone hjk.symm fun x hlo hhi => (hw x (hd x hlo hhi)).1
  have hdisjoint : ∀ x, a.toNat ≤ x → x < a.toNat + d.length → ¬ (a'.toNat ≤ x ∧ x < a'.toNat + d'.length) :=
    fun x hlo hhi hin => (hw x (hd x hlo hhi)).2 (hd' x hin.1 hin.2)
  exact ⟨_, _, hlocal' s hsees'.symm, hlocal _ hsees, State.byteAt_memWrite_comm s Config.chip hdisjoint, slotDone_comm hjk⟩

end Sys2Proof.Machine
